-- ==== Sys2Proof/Word.lean ====
section
/-! DEFINITION. The two kinds of word of KVC: the 6-bit operation word (00_scope.md R15) and the type of the
machine's numbers (00_scope.md R10). -/

namespace Sys2Proof

/-- An operation word `op[5:0]`; bit 5 is the most significant (00_scope.md R15, 30_encoding.md R50). -/
abbrev OpWord := BitVec 6

/-- The type in which the machine writes the values of `Num` (00_scope.md R10). DESIGN CHOICE (log 1): the rationals.
Which of them are the representable values of a format is a part of the format's numerics record (Numerics.finite); in a
format with NaN and infinities the others stand for those (log 4). A signed zero is 0 (00_scope.md R11, N_mul0). -/
abbrev Number := ℚ

end Sys2Proof
end

