-- ==== Sys2Proof/Config.lean ====
section
/-! DEFINITION. What an implementation of KVC fixes: the numerics record of the open parameter NUM with the properties it
must have, the configuration record with its defaults, and the free values (constants with no body). -/

namespace Sys2Proof

/-- The numerics record NUM: the representable values, the eight primitives, the embedding of the literals and the single
constant `TWO_PI` (00_scope.md R10, R17). Each primitive is a total function of its operands alone. -/
structure Numerics (α : Type) where
  /-- The set of representable values: the finite ones. Any other value is a NaN or an infinity (00_scope.md R14). -/
  finite : α → Bool
  /-- Which of the others is a NaN (00_scope.md R11, N_cmp). -/
  nan : α → Bool
  add : α → α → α
  sub : α → α → α
  mul : α → α → α
  div : α → α → α
  lt : α → α → Bool
  ge : α → α → Bool
  sin : α → α
  exp : α → α
  /-- The value that stands for a literal or for a configuration value. -/
  const : ℚ → α
  twoPi : α

/-- The named properties that NUM must satisfy (00_scope.md R11), with 0, 1 and the order of the number type: signed zeros are
one 0 (log 1), and 0 and 1 are representable and are the literals 0 and 1 (log 2). -/
structure Lawful {α : Type} [Zero α] [One α] [LT α] (N : Numerics α) : Prop where
  const_zero : N.const 0 = 0
  const_one : N.const 1 = 1
  finite_zero : N.finite 0 = true
  finite_one : N.finite 1 = true
  /-- `N_exp0` -/
  exp_zero : N.exp 0 = 1
  /-- `N_sin0` -/
  sin_zero : N.sin 0 = 0
  /-- `N_div0`, for every `x > 0`, an infinite one too: `x > 0` is what the format's own `lt` says of an `x` that is no
  NaN; on finite values that is the exact order (`lt_iff`). -/
  zero_div : ∀ x, N.nan x = false → N.lt 0 x = true → N.div 0 x = 0
  /-- `N_mul0` -/
  mul_zero : ∀ x, N.finite x = true → N.mul x 0 = 0
  /-- `N_add0`, the sum -/
  add_zero : ∀ x, N.add x 0 = x
  /-- `N_add0`, the difference -/
  sub_zero : ∀ x, N.sub x 0 = x
  /-- `N_sub_self` -/
  sub_self : ∀ x, N.finite x = true → N.sub x x = 0
  /-- `N_cmp`, `lt` -/
  lt_iff : ∀ x y, N.finite x = true → N.finite y = true → (N.lt x y = true ↔ x < y)
  /-- `N_cmp`, `ge` -/
  ge_not_lt : ∀ x y, N.nan x = false → N.nan y = false → N.ge x y = !N.lt x y
  /-- A finite value is no NaN. -/
  nan_of_finite : ∀ x, N.finite x = true → N.nan x = false

/-- Which number format the block has, as plain data (00_scope.md R10: NUM is OPEN). DESIGN CHOICE (log 2): `exact` is
exact arithmetic, the reading in which every "exactly" of the spec holds literally; `implementation k` is the `k`-th of
the other formats, of which nothing is known but the named properties of 00_scope.md R11. -/
inductive NumFormat where
  | exact
  | implementation (k : Nat)
deriving DecidableEq, Repr

/-- The configuration record: the nine configuration values P0 to P8 (10_state.md R30) and the four literal constants
(10_state.md R32, 92_eei_decisions.md D22). -/
structure Params (α : Type) where
  /-- P0, in Hz. -/
  sampleRate : α
  /-- P1, the sweep's start value, in Hz. -/
  startFrequency : α
  /-- P2, the sweep's end value, in Hz. -/
  endFrequency : α
  /-- P3, the sweep's duration, in s. -/
  pitchDecayTime : α
  /-- P4, in s. -/
  attackTime : α
  /-- P5, in s. -/
  decayTime : α
  /-- P6. -/
  sustainLevel : α
  /-- P7, in s. -/
  releaseTime : α
  /-- P8. -/
  clickLevel : α
  /-- `K_CURVE`, the steepness of the sweep. -/
  kCurve : α
  /-- `K_CLICK_DECAY`, in 1/s. -/
  kClickDecay : α
  /-- `K_CLICK_RATIO`, the click oscillator's frequency over the tone's. -/
  kClickRatio : α
  /-- `K_OUT_ATTEN`, the fixed output attenuation. -/
  kOutAtten : α
deriving DecidableEq, Repr

/-- The same record in another number type: how the values are embedded in a format (00_scope.md R10). -/
def Params.map {α β : Type} (f : α → β) (P : Params α) : Params β where
  sampleRate := f P.sampleRate
  startFrequency := f P.startFrequency
  endFrequency := f P.endFrequency
  pitchDecayTime := f P.pitchDecayTime
  attackTime := f P.attackTime
  decayTime := f P.decayTime
  sustainLevel := f P.sustainLevel
  releaseTime := f P.releaseTime
  clickLevel := f P.clickLevel
  kCurve := f P.kCurve
  kClickDecay := f P.kClickDecay
  kClickRatio := f P.kClickRatio
  kOutAtten := f P.kOutAtten

/-- The values of the record, in order. -/
def Params.toList {α : Type} (P : Params α) : List α :=
  [P.sampleRate, P.startFrequency, P.endFrequency, P.pitchDecayTime, P.attackTime, P.decayTime, P.sustainLevel,
    P.releaseTime, P.clickLevel, P.kCurve, P.kClickDecay, P.kClickRatio, P.kOutAtten]

namespace Config

/-- The configuration with the spec's defaults for P1 to P8 (10_state.md R30), the four literals at the source's values
(R32), and a given sample rate: P0 has no default and must be supplied. -/
def defaults (sampleRate : Number) : Params Number where
  sampleRate := sampleRate
  startFrequency := 150
  endFrequency := 50
  pitchDecayTime := 1 / 10
  attackTime := 1 / 1000
  decayTime := 3 / 10
  sustainLevel := 1 / 10
  releaseTime := 1 / 10
  clickLevel := 3 / 10
  kCurve := 5
  kClickDecay := 50
  kClickRatio := 8
  kOutAtten := 1 / 2

/-- The sample rate that State.reset holds. DESIGN CHOICE (log 5): the rate of the spec's own examples
(43_voice_mixer.md R149). -/
def exampleSampleRate : Number := 48000

/-! ### Free values: constants with no body -/

/-- FREE VALUE (log 3): the sine of a non-zero operand, in each format (00_scope.md R10; 91_not_in_source.md N10). -/
opaque sinValue : NumFormat → Number → Number

/-- FREE VALUE (log 3): the exponential of a non-zero operand, in each format (91_not_in_source.md N11). -/
opaque expValue : NumFormat → Number → Number

/-- FREE VALUE (log 3): the constant `TWO_PI = const(2π)` of each format (00_scope.md R17). -/
opaque twoPi : NumFormat → Number

/-- FREE VALUE (log 4): what the exact format's quotient by zero is; no run from reset reaches one
(41_adsr_envelope.md R99, 42_sweep_envelope.md R126). -/
opaque divByZero : Number → Number

/-- FREE VALUE (log 2): which numbers but 0 and 1 are representable in an implementation (00_scope.md R10). -/
opaque implFinite : Nat → Number → Bool

/-- FREE VALUE (log 4): which of an implementation's other values are NaN. -/
opaque implNaN : Nat → Number → Bool

/-- FREE VALUE (log 2): an implementation's sum, where 00_scope.md R11 does not fix it. -/
opaque implAdd : Nat → Number → Number → Number

/-- FREE VALUE (log 2): an implementation's difference, where 00_scope.md R11 does not fix it. -/
opaque implSub : Nat → Number → Number → Number

/-- FREE VALUE (log 2): an implementation's product, where 00_scope.md R11 does not fix it. -/
opaque implMul : Nat → Number → Number → Number

/-- FREE VALUE (log 2): an implementation's quotient, where 00_scope.md R11 does not fix it. -/
opaque implDiv : Nat → Number → Number → Number

/-- FREE VALUE (log 4): an implementation's `lt` with an operand that is not finite. -/
opaque implLt : Nat → Number → Number → Bool

/-- FREE VALUE (log 4): an implementation's `ge` with an operand that is a NaN. -/
opaque implGe : Nat → Number → Number → Bool

/-- FREE VALUE (log 2): an implementation's embedding of a literal other than 0 and 1 (00_scope.md R10). -/
opaque implConst : Nat → ℚ → Number

/-- FREE VALUE (log 9): `rsp_err` in a cycle with `rsp_valid = 0` (93_implementation_defined.md U9). -/
opaque idleRspErr : Nat → Bool

/-- FREE VALUE (log 9): `rsp_data` in a cycle with `rsp_valid = 0` (93_implementation_defined.md U9). -/
opaque idleRspData : Nat → Number

/-- The open parameter LATENCY, less the one cycle it has at least (70_reset_and_hazards.md R203; log 10). -/
opaque latencyBeyondOne : OpWord → Nat

/-- `LATENCY(op)`: clock cycles from acceptance to response, positive, fixed per operation and independent of the
state (70_reset_and_hazards.md R203). The step carries no time, so no meaning reads it (log 10). -/
def latency (op : OpWord) : Nat := latencyBeyondOne op + 1

end Config

end Sys2Proof
end

