-- ==== Sys2Proof/Machine/Operands.lean ====
section
/-! DEFINITION. The number operations of each format (00_scope.md R10, R11) and the derived constants the operations
read. The one operand form, the frequency of format U1, is passed unchanged (30_encoding.md R54). -/

namespace Sys2Proof.Machine

/-! ### The primitives of the exact format -/

/-- Exact division; a quotient by zero, which no run from reset reaches, is a free value (log 4). -/
def exactDiv (a b : Number) : Number := if b = 0 then Config.divByZero a else a / b

/-! ### The primitives of an implementation: what 00_scope.md R11 fixes, and a free value elsewhere (log 2) -/

/-- The representable values: 0 and 1 are (00_scope.md R11 computes with them), and of the others nothing is known. -/
def implFinite (k : Nat) (x : Number) : Bool := decide (x = 0) || decide (x = 1) || Config.implFinite k x

/-- The NaNs, among the values that are not finite. -/
def implNaN (k : Nat) (x : Number) : Bool := !implFinite k x && Config.implNaN k x

/-- `N_add0`: `x + 0 = x`. -/
def implAdd (k : Nat) (a b : Number) : Number := if b = 0 then a else Config.implAdd k a b

/-- `N_add0`: `x - 0 = x`; `N_sub_self`: `x - x = 0` for a finite `x`. -/
def implSub (k : Nat) (a b : Number) : Number :=
  if b = 0 then a else if a = b ∧ implFinite k a = true then 0 else Config.implSub k a b

/-- `N_mul0`: `x * 0 = 0` for a finite `x`. DEDUCED (log 12): and `0 * x = 0`, which 43_voice_mixer.md R149 needs. -/
def implMul (k : Nat) (a b : Number) : Number :=
  if (a = 0 ∧ implFinite k b = true) ∨ (b = 0 ∧ implFinite k a = true) then 0 else Config.implMul k a b

/-- `N_cmp`: the exact order on the representable values. -/
def implLt (k : Nat) (a b : Number) : Bool :=
  if implFinite k a = true ∧ implFinite k b = true then decide (a < b) else Config.implLt k a b

/-- `N_div0`: `0 / x = 0` for every `x > 0`, an infinite one too (Lawful.zero_div). -/
def implDiv (k : Nat) (a b : Number) : Number :=
  if a = 0 ∧ implNaN k b = false ∧ implLt k 0 b = true then 0 else Config.implDiv k a b

/-- `N_cmp`: `ge(a, b) = not lt(a, b)` for all values that are no NaN. -/
def implGe (k : Nat) (a b : Number) : Bool :=
  if implNaN k a = true ∨ implNaN k b = true then Config.implGe k a b else !implLt k a b

/-- The literals 0 and 1 are the numbers 0 and 1 of 00_scope.md R11. -/
def implConst (k : Nat) (c : ℚ) : Number := if c = 0 then 0 else if c = 1 then 1 else Config.implConst k c

/-! ### The primitives both formats share -/

/-- `N_sin0`: `sin(0) = 0`; elsewhere a free value (log 3). -/
def numSin (f : NumFormat) (x : Number) : Number := if x = 0 then 0 else Config.sinValue f x

/-- `N_exp0`: `exp(0) = 1`; elsewhere a free value (log 3). -/
def numExp (f : NumFormat) (x : Number) : Number := if x = 0 then 1 else Config.expValue f x

/-- The numerics record of a format (00_scope.md R10). -/
def numerics : NumFormat → Numerics Number
  | .exact =>
    { finite := fun _ => true
      nan := fun _ => false
      add := fun a b => a + b
      sub := fun a b => a - b
      mul := fun a b => a * b
      div := exactDiv
      lt := fun a b => decide (a < b)
      ge := fun a b => decide (b ≤ a)
      sin := numSin .exact
      exp := numExp .exact
      const := fun c => c
      twoPi := Config.twoPi .exact }
  | .implementation k =>
    { finite := implFinite k
      nan := implNaN k
      add := implAdd k
      sub := implSub k
      mul := implMul k
      div := implDiv k
      lt := implLt k
      ge := implGe k
      sin := numSin (.implementation k)
      exp := numExp (.implementation k)
      const := implConst k
      twoPi := Config.twoPi (.implementation k) }

/-- Every format of the machine has the named properties (00_scope.md R11). -/
theorem numerics_lawful (f : NumFormat) : Lawful (numerics f) := by
  cases f with
  | exact =>
    constructor <;> intros <;> simp [numerics, numSin, numExp, exactDiv, ← decide_not]
    rintro rfl
    simp_all [numerics]
  | implementation k =>
    exact
      { const_zero := by simp [numerics, implConst]
        const_one := by simp [numerics, implConst]
        finite_zero := by simp [numerics, implFinite]
        finite_one := by simp [numerics, implFinite]
        exp_zero := by simp [numerics, numExp]
        sin_zero := by simp [numerics, numSin]
        zero_div := fun x hn hp => if_pos ⟨rfl, hn, hp⟩
        mul_zero := fun x hx => if_pos (.inr ⟨rfl, hx⟩)
        add_zero := fun x => by simp [numerics, implAdd]
        sub_zero := fun x => by simp [numerics, implSub]
        sub_self := fun x hx => by
          by_cases h : x = 0
          · exact (if_pos h).trans h
          · exact (if_neg h).trans (if_pos ⟨rfl, hx⟩)
        lt_iff := fun x y hx hy => by
          rw [show (numerics (.implementation k)).lt x y = decide (x < y) from if_pos ⟨hx, hy⟩, decide_eq_true_iff]
        ge_not_lt := fun x y hx hy => if_neg (by
          rintro (h | h)
          · exact Bool.false_ne_true (hx.symm.trans h)
          · exact Bool.false_ne_true (hy.symm.trans h))
        nan_of_finite := fun x hx => by
          simp only [numerics] at hx
          simp [numerics, implNaN, hx] }

/-- The sample period `DT = 1 / SAMPLE_RATE` (10_state.md R33), shared by both envelopes; computed where
it is read, with the same value each time (log 15). -/
def samplePeriod {α : Type} (N : Numerics α) (P : Params α) : α := N.div (N.const 1) P.sampleRate

end Sys2Proof.Machine
end

