-- ==== Sys2Proof/Syntax.lean ====
section
/-! DEFINITION. The seventeen operations of KVC (30_encoding.md R52), one constructor per row of the opcode table;
the units and ports they belong to; and the lines of the script syntax (30_encoding.md R63, R64). -/

namespace Sys2Proof

/-- The five units (00_scope.md R2). -/
inductive UnitName where
  | voice
  | oscTone
  | oscClick
  | adsr
  | sweep
deriving DecidableEq, Repr

/-- Where an operation travels (30_encoding.md R55, R59). -/
inductive Port where
  | command
  | unitBus
deriving DecidableEq, Repr

/-- An operation (30_encoding.md R52). Only the two SINE have an operand (R53, format U1), passed unchanged (R54). -/
inductive Instr where
  /-- NOP -/
  | nop
  /-- TRIGGER -/
  | trigger
  /-- NEXT_SAMPLE -/
  | nextSample
  /-- NOTE_OFF -/
  | noteOff
  /-- TONE.SINE frequency -/
  | toneSine (frequency : Number)
  /-- TONE.RESET -/
  | toneReset
  /-- CLICK.SINE frequency -/
  | clickSine (frequency : Number)
  /-- CLICK.RESET -/
  | clickReset
  /-- ENV.VALUE -/
  | envValue
  /-- ENV.ADVANCE -/
  | envAdvance
  /-- ENV.TRIGGER -/
  | envTrigger
  /-- ENV.RELEASE -/
  | envRelease
  /-- ENV.FINISHED -/
  | envFinished
  /-- SWP.VALUE -/
  | swpValue
  /-- SWP.ADVANCE -/
  | swpAdvance
  /-- SWP.RESET -/
  | swpReset
  /-- SWP.TIME -/
  | swpTime
deriving DecidableEq, Repr

/-- The unit that performs an operation (30_encoding.md R51, R52). -/
def Instr.unit : Instr → UnitName
  | .nop | .trigger | .nextSample | .noteOff => .voice
  | .toneSine _ | .toneReset => .oscTone
  | .clickSine _ | .clickReset => .oscClick
  | .envValue | .envAdvance | .envTrigger | .envRelease | .envFinished => .adsr
  | .swpValue | .swpAdvance | .swpReset | .swpTime => .sweep

/-- The port an operation travels on: VOICE's four are commands, the thirteen others travel on the unit bus alone
(30_encoding.md R59, R60). -/
def Instr.port (i : Instr) : Port := if i.unit = .voice then .command else .unitBus

/-- One line of a script (30_encoding.md R63), the two pseudo-instructions among them (R64). -/
inductive ScriptLine where
  /-- A line that is empty or holds a comment alone. -/
  | blank
  /-- A mnemonic, with its operand in format U1. -/
  | operation (i : Instr)
  /-- `NEXT_SAMPLE *k` -/
  | nextSampleTimes (k : Nat)
  /-- `RETRIGGER` -/
  | retrigger
deriving DecidableEq, Repr

end Sys2Proof
end

