-- ==== Sys2Proof/WellFormed.lean ====
section
/-! DEFINITION. What is well formed: a configuration (00_scope.md R9, R14), and an operation on the port that carries it
(30_encoding.md R59, R60). The frequency operand is a value of any kind; a block refuses one that is not finite when it
meets it (00_scope.md R14). -/

namespace Sys2Proof

/-- A configuration is valid under a number format when `SAMPLE_RATE > 0` (00_scope.md R9) and every value is finite
(R14, 92_eei_decisions.md D3), the constants `TWO_PI`, `-K_CURVE` and `-K_CLICK_DECAY` too (log 16); nothing else is
checked. -/
def Params.wf {α : Type} (N : Numerics α) (P : Params α) : Bool :=
  N.lt (N.const 0) P.sampleRate && P.toList.all N.finite && N.finite N.twoPi &&
    N.finite (N.sub (N.const 0) P.kCurve) && N.finite (N.sub (N.const 0) P.kClickDecay)

/-- The configuration of a block over any number type: NUM is one of its fields (00_scope.md R10, 92_eei_decisions.md
D2), beside the values as they stand in that format. It carries the proof that NUM has the named properties it must have
(00_scope.md R11), and that the configuration is valid: a block with an invalid one does not exist (00_scope.md R9,
92_eei_decisions.md D3). -/
structure Block (α : Type) [Zero α] [One α] [LT α] where
  num : Numerics α
  lawful : Lawful num
  params : Params α
  valid : params.wf num = true

/-- The configuration of the machine, as plain data: the name of its number format, and the values as the literals that
the format embeds. -/
structure Configuration where
  num : NumFormat
  values : Params ℚ
  valid : (values.map (Machine.numerics num).const).wf (Machine.numerics num) = true
deriving DecidableEq, Repr

/-- The configuration values in the machine's number format: each one embedded by `const` (00_scope.md R10). -/
def Configuration.params (c : Configuration) : Params Number := c.values.map (Machine.numerics c.num).const

/-- The block that a configuration stands for, with the numerics record itself. -/
def Configuration.block (c : Configuration) : Block Number :=
  ⟨Machine.numerics c.num, Machine.numerics_lawful c.num, c.params, c.valid⟩

/-- An operation is well formed on a port when it travels there (30_encoding.md R59, R60). -/
def Instr.wfOn (port : Port) (i : Instr) : Bool := decide (i.port = port)

/-- An operation is well formed when some port carries it. -/
def Instr.wf (i : Instr) : Bool := i.wfOn .command || i.wfOn .unitBus

end Sys2Proof
end

