-- ==== Sys2Proof/Machine/State.lean ====
section
/-! DEFINITION. The state of KVC: the eight state elements of 10_state.md R20, the static configuration inputs, what
stands on the response port and the unit bus, and the host's events still to come. -/

namespace Sys2Proof.Machine

/-- The one error of the block (60_exceptions.md R171). -/
inductive Fault where
  /-- Raised by the command port for an accepted word that is not one of the four commands (30_encoding.md R60). It names
  the word and writes no state element. It is answered in the response (`rsp_err = 1`) and the machine goes on, as the
  rule says, so no step stops with it (log 7): safe, no behaviour of the hardware is lost. -/
  | cmdError (op : OpWord)
deriving DecidableEq, Repr

/-- Why a step is refused. -/
inductive Refusal where
  /-- Raised by exec's arm for an operation that has no meaning yet; no arm uses it now. Safe: the machine stops where
  the hardware goes on. -/
  | notModelled (mnemonic : String)
  /-- Raised by step for a reserved word on the unit bus, which has no meaning and is never issued (30_encoding.md R61).
  Safe: the hardware never does it. -/
  | reservedUnitWord (op : OpWord)
  /-- Raised by the meaning of an operation when its operand, its result, a value on the unit bus inside it, or a value it
  writes to a state element is a NaN or an infinity (00_scope.md R14, 93_implementation_defined.md U7). Safe: the
  contract ends there. -/
  | nonFinite
  /-- Raised by step for a VOICE word on the unit bus: the bus carries only words whose `unit` is not VOICE
  (30_encoding.md R59). Safe: the hardware never does it. -/
  | voiceWordOnUnitBus (op : OpWord)
deriving DecidableEq, Repr

/-- A response, in the cycle with `rsp_valid = 1` (30_encoding.md R56). -/
inductive Response (α : Type) where
  /-- `rsp_err = 0` and `rsp_data = d`. -/
  | data (d : α)
  /-- `rsp_err = 1` and `rsp_data = 0`. The fault names the word, as 60_exceptions.md R171 asks of a model; no wire does. -/
  | error (f : Fault)
deriving DecidableEq, Repr

/-- What a unit operation returns on the unit bus (30_encoding.md R59). -/
inductive UnitResult (α : Type) where
  /-- The operation returns nothing. -/
  | done
  /-- `u_res`. -/
  | num (v : α)
  /-- `u_flag`. -/
  | flag (b : Bool)
deriving DecidableEq, Repr

/-- One thing the host does (70_reset_and_hazards.md R205), or one line of a unit-bus trace (30_encoding.md R63). -/
inductive HostEvent (α : Type) where
  /-- The host holds `cmd_valid = 0` (30_encoding.md R55). -/
  | idle
  /-- The host asserts `rst` for an edge (70_reset_and_hazards.md R190). -/
  | rst
  /-- The host presents a word, any word, and it is accepted (30_encoding.md R55). -/
  | command (op : OpWord)
  /-- A word and its `u_arg` on the unit bus, to run a unit alone (30_encoding.md R63); no host can do this (R59, log 8). -/
  | unitOp (op : OpWord) (arg : α)
deriving DecidableEq, Repr

/-- The whole mutable state of KVC: S0 to S7 (10_state.md R20), over any number type. -/
structure VoiceState (α : Type) where
  /-- S0, `OSC_TONE.phase` (10_state.md R21). -/
  tonePhase : α
  /-- S1, `OSC_CLICK.phase` (10_state.md R21). -/
  clickPhase : α
  /-- S2, `SWEEP.current_time` (10_state.md R22). -/
  currentTime : α
  /-- S3, `ADSR.elapsed_time` (10_state.md R23). -/
  elapsedTime : α
  /-- S4, `ADSR.release_start_level` (10_state.md R24). -/
  releaseStartLevel : α
  /-- S5, `ADSR.release_start_time` (10_state.md R24). -/
  releaseStartTime : α
  /-- S6, `ADSR.is_active` (10_state.md R26). -/
  isActive : Bool
  /-- S7, `VOICE.is_playing` (10_state.md R27). -/
  isPlaying : Bool
deriving DecidableEq, Repr

/-- All that changes while a block runs, over any number type: the state elements, the ports, and the host's part. Its
configuration is a parameter of the step (10_state.md R31). -/
structure RunState (α : Type) where
  /-- The eight state elements (10_state.md R20). -/
  voice : VoiceState α
  /-- The response port in the cycle of the step just taken; `none` is `rsp_valid = 0` (30_encoding.md R56). -/
  rsp : Option (Response α)
  /-- What the unit bus returned to a unit operation from outside VOICE in the step just taken (30_encoding.md R59). -/
  bus : Option (UnitResult α)
  /-- The host's events not yet taken, first first (log 6). -/
  pending : List (HostEvent α)
  /-- The model's own counter, which the free values are applied to (log 9). -/
  freeCount : Nat
deriving DecidableEq, Repr

/-- The machine: a block's state with its configuration inputs. -/
structure State extends RunState Number where
  /-- The static configuration inputs (10_state.md R31, 30_encoding.md R58). -/
  cfg : Configuration
deriving DecidableEq, Repr

/-- The reset values of S0 to S7 (10_state.md R38), for the number type's own 0. -/
def VoiceState.atReset {α : Type} (zero : α) : VoiceState α where
  tonePhase := zero
  clickPhase := zero
  currentTime := zero
  elapsedTime := zero
  releaseStartLevel := zero
  releaseStartTime := zero
  isActive := false
  isPlaying := false

/-- The state right after reset (10_state.md R38, 70_reset_and_hazards.md R190, R192): no response, and nothing of the
host's part is known yet. -/
def RunState.atReset {α : Type} (zero : α) : RunState α where
  voice := VoiceState.atReset zero
  rsp := none
  bus := none
  pending := []
  freeCount := 0

/-- The machine right after reset under a configuration. -/
def State.resetWith (cfg : Configuration) : State where
  toRunState := RunState.atReset 0
  cfg := cfg

/-- The configuration State.reset stands under: the spec's defaults at the spec's example rate, in exact arithmetic.
DESIGN CHOICE (log 5): the configuration is an input and has no reset value (10_state.md R38). -/
def exampleConfiguration : Configuration where
  num := .exact
  values := Config.defaults Config.exampleSampleRate
  valid := by decide +kernel

/-- The machine right after reset (10_state.md R38), under the configuration of log 5. -/
def State.reset : State := State.resetWith exampleConfiguration

end Sys2Proof.Machine
end

