-- ==== Sys2Proof/Machine/Flags.lean ====
section
/-! DEFINITION. The two flags (10_state.md R26, R27) and what is computed from them: the envelope's stage and its
finished signal. No operation sets an arithmetic flag (10_state.md R28). -/

namespace Sys2Proof.Machine

/-- The envelope's stages (41_adsr_envelope.md R91). -/
inductive Stage where
  | attack
  | decay
  | sustain
  | release
  | idle
deriving DecidableEq, Repr

/-- The stage, a function of the state that is not stored (41_adsr_envelope.md R91). -/
def stage {α : Type} (N : Numerics α) (P : Params α) (v : VoiceState α) : Stage :=
  if v.isActive then
    if N.lt v.elapsedTime P.attackTime then .attack
    else if N.lt v.elapsedTime (N.add P.attackTime P.decayTime) then .decay
    else .sustain
  else
    if N.lt (N.sub v.elapsedTime v.releaseStartTime) P.releaseTime then .release
    else .idle

/-- ENV.FINISHED (41_adsr_envelope.md R98): inactive, and the time since the release began has reached
`RELEASE_TIME`. -/
def envIsFinished {α : Type} (N : Numerics α) (P : Params α) (v : VoiceState α) : Bool :=
  !v.isActive && N.ge (N.sub v.elapsedTime v.releaseStartTime) P.releaseTime

/-- Clear `is_playing` if the envelope has finished (43_voice_mixer.md R144, step 6). -/
def stopIfFinished {α : Type} (N : Numerics α) (P : Params α) (v : VoiceState α) : VoiceState α :=
  if envIsFinished N P v then { v with isPlaying := false } else v

end Sys2Proof.Machine
end

