-- ==== Sys2Proof/Decode.lean ====
section
/-! DEFINITION. Decoding and encoding (30_encoding.md R50 to R54, R60, R61). Decoding is total: every 6-bit word is an
operation or is rejected by name. -/

namespace Sys2Proof

/-- What stands on the wires with one operation: the word, and beside it one `Num`, which format C0 does not read
(30_encoding.md R53). -/
structure Packet where
  op : OpWord
  arg : Number
deriving DecidableEq, Repr

/-- Why a word names no operation. -/
inductive DecodeError where
  /-- `unit` is `0b101`, `0b110` or `0b111` (30_encoding.md R51). -/
  | reservedUnit
  /-- `uop` is none of the unit's operations (30_encoding.md R60, R61). -/
  | reservedUop
deriving DecidableEq, Repr

/-- `op[5:3]` (30_encoding.md R50). -/
def unitField (op : OpWord) : BitVec 3 := op.extractLsb' 3 3

/-- `op[2:0]` (30_encoding.md R50). -/
def uopField (op : OpWord) : BitVec 3 := op.extractLsb' 0 3

/-- The `unit` field's values (30_encoding.md R51). -/
def decodeUnitField (u : BitVec 3) : Option UnitName :=
  if u = 0b000#3 then some .voice
  else if u = 0b001#3 then some .oscTone
  else if u = 0b010#3 then some .oscClick
  else if u = 0b011#3 then some .adsr
  else if u = 0b100#3 then some .sweep
  else none

/-- VOICE's operations by `uop` (30_encoding.md R52). -/
def decodeVoice (u : BitVec 3) : Option Instr :=
  if u = 0b000#3 then some .nop
  else if u = 0b001#3 then some .trigger
  else if u = 0b010#3 then some .nextSample
  else if u = 0b011#3 then some .noteOff
  else none

/-- OSC_TONE's operations by `uop` (30_encoding.md R52). -/
def decodeTone (u : BitVec 3) (arg : Number) : Option Instr :=
  if u = 0b000#3 then some (.toneSine arg)
  else if u = 0b001#3 then some .toneReset
  else none

/-- OSC_CLICK's operations by `uop` (30_encoding.md R52). -/
def decodeClick (u : BitVec 3) (arg : Number) : Option Instr :=
  if u = 0b000#3 then some (.clickSine arg)
  else if u = 0b001#3 then some .clickReset
  else none

/-- ADSR's operations by `uop` (30_encoding.md R52). -/
def decodeAdsr (u : BitVec 3) : Option Instr :=
  if u = 0b000#3 then some .envValue
  else if u = 0b001#3 then some .envAdvance
  else if u = 0b010#3 then some .envTrigger
  else if u = 0b011#3 then some .envRelease
  else if u = 0b100#3 then some .envFinished
  else none

/-- SWEEP's operations by `uop` (30_encoding.md R52). -/
def decodeSweep (u : BitVec 3) : Option Instr :=
  if u = 0b000#3 then some .swpValue
  else if u = 0b001#3 then some .swpAdvance
  else if u = 0b010#3 then some .swpReset
  else if u = 0b011#3 then some .swpTime
  else none

/-- The operation of a unit that a `uop` and an operand name. -/
def decodeUop (unit : UnitName) (u : BitVec 3) (arg : Number) : Option Instr :=
  match unit with
  | .voice => decodeVoice u
  | .oscTone => decodeTone u arg
  | .oscClick => decodeClick u arg
  | .adsr => decodeAdsr u
  | .sweep => decodeSweep u

/-- The opcode map of 30_encoding.md R52, over both ports. -/
def decode (p : Packet) : Except DecodeError Instr :=
  match decodeUnitField (unitField p.op) with
  | none => .error .reservedUnit
  | some unit =>
    match decodeUop unit (uopField p.op) p.arg with
    | none => .error .reservedUop
    | some i => .ok i

/-- `decode_cmd` of 30_encoding.md R60: the four commands; `none` stands for `Illegal(op)`. -/
def decodeCmd (op : OpWord) : Option Instr :=
  if op = 0b000000#6 then some .nop
  else if op = 0b000001#6 then some .trigger
  else if op = 0b000010#6 then some .nextSample
  else if op = 0b000011#6 then some .noteOff
  else none

/-- Why the unit bus refuses a word. -/
inductive UnitBusError where
  /-- The word is reserved (30_encoding.md R61). -/
  | reserved (e : DecodeError)
  /-- The word's `unit` is VOICE, which issues on the bus and does not listen there (30_encoding.md R59). -/
  | voiceWord
deriving DecidableEq, Repr

/-- Decoding on the unit bus: a word of 30_encoding.md R52 whose `unit` is not VOICE (R59), with `u_arg`. -/
def decodeUnitOp (p : Packet) : Except UnitBusError Instr :=
  match decode p with
  | .error e => .error (.reserved e)
  | .ok i => if i.port = .command then .error .voiceWord else .ok i

/-- The operation that the host's table word `w` stands for: the 6-bit word in `w`'s low six bits, the operand of
format U1, which the table gives no bits, zero (log 11). A `w` of seven bits or more is no operation word. -/
def decodeTableWord (_nbits w : Nat) : Option Instr :=
  if w < 64 then
    match decode ⟨BitVec.ofNat 6 w, 0⟩ with
    | .ok i => some i
    | .error _ => none
  else none

/-! ### The encoder -/

/-- The operation word of an operation (30_encoding.md R52). -/
def opWord : Instr → OpWord
  | .nop => 0b000000#6
  | .trigger => 0b000001#6
  | .nextSample => 0b000010#6
  | .noteOff => 0b000011#6
  | .toneSine _ => 0b001000#6
  | .toneReset => 0b001001#6
  | .clickSine _ => 0b010000#6
  | .clickReset => 0b010001#6
  | .envValue => 0b011000#6
  | .envAdvance => 0b011001#6
  | .envTrigger => 0b011010#6
  | .envRelease => 0b011011#6
  | .envFinished => 0b011100#6
  | .swpValue => 0b100000#6
  | .swpAdvance => 0b100001#6
  | .swpReset => 0b100010#6
  | .swpTime => 0b100011#6

/-- The operand beside the word: the frequency in format U1; format C0 drives none, and 0 stands for it (log 11). -/
def operand : Instr → Number
  | .toneSine f => f
  | .clickSine f => f
  | .nop | .trigger | .nextSample | .noteOff | .toneReset | .clickReset => 0
  | .envValue | .envAdvance | .envTrigger | .envRelease | .envFinished => 0
  | .swpValue | .swpAdvance | .swpReset | .swpTime => 0

/-- The wires an operation is presented on. -/
def encode (i : Instr) : Packet := ⟨opWord i, operand i⟩

end Sys2Proof
end

