-- ==== Sys2Proof/Machine/Ops.lean ====
section
/-! DEFINITION. The shared operations on a state: answering on the response port and on the unit bus, ending an operation
whose values must be finite, the one error of the block, reset, and taking the next event of the host. KVC has no memory
(20_memory.md R40) and no trap entry or return (60_exceptions.md R176). -/

namespace Sys2Proof.Machine

variable {α : Type}

/-- Answer a command: `rsp_valid = 1`, `rsp_err = 0`, `rsp_data = d` (30_encoding.md R56). -/
def RunState.respond (d : α) (s : RunState α) : RunState α := { s with rsp := some (.data d) }

/-- Answer a unit operation on the unit bus (30_encoding.md R59). -/
def RunState.answer (r : UnitResult α) (s : RunState α) : RunState α := { s with bus := some r }

/-- End an operation: its next state, unless one of `values`, which it carried on a wire or wrote to a register, is a NaN
or an infinity (00_scope.md R14). -/
def finish (N : Numerics α) (values : List α) (t : RunState α) : Host.Outcome (RunState α) Fault Refusal :=
  if values.all N.finite then .next t else .refused .nonFinite

/-- `raise CmdError(op)` (60_exceptions.md R171): the response is an error, and no state element is written. -/
def RunState.takeCmdError (op : OpWord) (s : RunState α) : RunState α := { s with rsp := some (.error (.cmdError op)) }

/-- Take the first event of the host: `rest` is to come, and the response and the unit bus of the step before are gone
(30_encoding.md R56: `rsp_valid = 1` for one cycle). -/
def RunState.accept (rest : List (HostEvent α)) (s : RunState α) : RunState α :=
  { s with rsp := none, bus := none, pending := rest, freeCount := s.freeCount + 1 }

/-- An edge with `rst = 1` (70_reset_and_hazards.md R190): S0 to S7 take their reset values and the configuration
stays (R191; log 14). -/
def RunState.applyReset (zero : α) (s : RunState α) : RunState α := { s with voice := VoiceState.atReset zero }

/-! ### The machine as a block -/

/-- The numerics record of the machine. -/
abbrev State.ops (s : State) : Numerics Number := numerics s.cfg.num

/-- The configuration values of the machine, in its number format. -/
abbrev State.params (s : State) : Params Number := s.cfg.params

/-- The block the machine is. -/
abbrev State.block (s : State) : Block Number := s.cfg.block

/-- The machine with what its block answered; the configuration stays (10_state.md R31). -/
def State.lift (s : State) (o : Host.Outcome (RunState Number) Fault Refusal) : Host.Outcome State Fault Refusal :=
  match o with
  | .next t => .next { s with toRunState := t }
  | .fault f => .fault f
  | .refused r => .refused r

/-! ### What the ports show -/

/-- The output `playing` (30_encoding.md R57). -/
def RunState.playing (s : RunState α) : Bool := s.voice.isPlaying

/-- `rsp_valid` (30_encoding.md R56). -/
def RunState.rspValid (s : RunState α) : Bool := s.rsp.isSome

/-- `rsp_err` (30_encoding.md R56); a free value while `rsp_valid = 0` (93_implementation_defined.md U9). -/
def RunState.rspErr (s : RunState α) : Bool :=
  match s.rsp with
  | none => Config.idleRspErr s.freeCount
  | some (.data _) => false
  | some (.error _) => true

/-- `rsp_data` (30_encoding.md R56); 0 with an error; a free value while `rsp_valid = 0`
(93_implementation_defined.md U9). -/
def State.rspData (s : State) : Number :=
  match s.rsp with
  | none => Config.idleRspData s.freeCount
  | some (.data d) => d
  | some (.error _) => 0

end Sys2Proof.Machine
end

