-- ==== Sys2Proof/Machine/Adsr.lean ====
section
/-! DEFINITION. The amplitude envelope ADSR (41_adsr_envelope.md). -/

namespace Sys2Proof.Machine

/-- `env_value_active` (41_adsr_envelope.md R92). The comparisons come before any division (R99). -/
def envValueActive {α : Type} (N : Numerics α) (P : Params α) (t : α) : α :=
  if N.lt t P.attackTime then
    N.div t P.attackTime
  else if N.lt t (N.add P.attackTime P.decayTime) then
    N.sub (N.const 1)
      (N.mul (N.sub (N.const 1) P.sustainLevel) (N.div (N.sub t P.attackTime) P.decayTime))
  else
    P.sustainLevel

/-- `env_value_release` (41_adsr_envelope.md R93), with the captured level and time. -/
def envValueRelease {α : Type} (N : Numerics α) (P : Params α) (level start t : α) : α :=
  let e := N.sub t start
  if N.lt e P.releaseTime then
    N.mul level (N.sub (N.const 1) (N.div e P.releaseTime))
  else
    N.const 0

/-- `env_value` (41_adsr_envelope.md R93), the result of ENV.VALUE (R94). -/
def envValue {α : Type} (N : Numerics α) (P : Params α) (v : VoiceState α) : α :=
  if v.isActive then envValueActive N P v.elapsedTime
  else envValueRelease N P v.releaseStartLevel v.releaseStartTime v.elapsedTime

/-- ENV.ADVANCE on the unit bus (41_adsr_envelope.md R95). -/
def envAdvance {α : Type} (N : Numerics α) (P : Params α) (v : VoiceState α) : VoiceState α :=
  { v with elapsedTime := N.add v.elapsedTime (samplePeriod N P) }

/-- ENV.TRIGGER on the unit bus (41_adsr_envelope.md R96). -/
def envTrigger {α : Type} (N : Numerics α) (v : VoiceState α) : VoiceState α :=
  { v with elapsedTime := N.const 0, isActive := true }

/-- ENV.RELEASE on the unit bus (41_adsr_envelope.md R97): the level is taken while `is_active` is still 1; when it is
already 0 nothing changes. -/
def envRelease {α : Type} (N : Numerics α) (P : Params α) (v : VoiceState α) : VoiceState α :=
  if v.isActive then
    { v with releaseStartLevel := envValue N P v, releaseStartTime := v.elapsedTime, isActive := false }
  else v

/-- The level and the time that ENV.RELEASE captures, when it captures them (41_adsr_envelope.md R97). -/
def captured {α : Type} (N : Numerics α) (P : Params α) (v : VoiceState α) : List α :=
  if v.isActive then [envValue N P v, v.elapsedTime] else []

/-! ### On a block -/

variable {α : Type} [Zero α] [One α] [LT α]

/-- ENV.VALUE on a block (41_adsr_envelope.md R94). -/
def runEnvValue (B : Block α) (s : RunState α) : Host.Outcome (RunState α) Fault Refusal :=
  let a := envValue B.num B.params s.voice
  finish B.num [a] (s.answer (.num a))

/-- ENV.ADVANCE on a block (41_adsr_envelope.md R95). -/
def runEnvAdvance (B : Block α) (s : RunState α) : Host.Outcome (RunState α) Fault Refusal :=
  let v := envAdvance B.num B.params s.voice
  finish B.num [v.elapsedTime] ({ s with voice := v }.answer .done)

/-- ENV.TRIGGER on a block (41_adsr_envelope.md R96). -/
def runEnvTrigger (B : Block α) (s : RunState α) : Host.Outcome (RunState α) Fault Refusal :=
  .next ({ s with voice := envTrigger B.num s.voice }.answer .done)

/-- ENV.RELEASE on a block (41_adsr_envelope.md R97). -/
def runEnvRelease (B : Block α) (s : RunState α) : Host.Outcome (RunState α) Fault Refusal :=
  finish B.num (captured B.num B.params s.voice)
    ({ s with voice := envRelease B.num B.params s.voice }.answer .done)

/-- ENV.FINISHED on a block (41_adsr_envelope.md R98). -/
def runEnvFinished (B : Block α) (s : RunState α) : Host.Outcome (RunState α) Fault Refusal :=
  .next (s.answer (.flag (envIsFinished B.num B.params s.voice)))

/-! ### On the machine -/

/-- ENV.VALUE (41_adsr_envelope.md R94). -/
def execEnvValue (s : State) : Host.Outcome State Fault Refusal := s.lift (runEnvValue s.block s.toRunState)

/-- ENV.ADVANCE (41_adsr_envelope.md R95). -/
def execEnvAdvance (s : State) : Host.Outcome State Fault Refusal := s.lift (runEnvAdvance s.block s.toRunState)

/-- ENV.TRIGGER (41_adsr_envelope.md R96). -/
def execEnvTrigger (s : State) : Host.Outcome State Fault Refusal := s.lift (runEnvTrigger s.block s.toRunState)

/-- ENV.RELEASE (41_adsr_envelope.md R97). -/
def execEnvRelease (s : State) : Host.Outcome State Fault Refusal := s.lift (runEnvRelease s.block s.toRunState)

/-- ENV.FINISHED (41_adsr_envelope.md R98). -/
def execEnvFinished (s : State) : Host.Outcome State Fault Refusal := s.lift (runEnvFinished s.block s.toRunState)

end Sys2Proof.Machine
end

