-- ==== Sys2Proof/Machine/Oscillator.lean ====
section
/-! DEFINITION. The oscillators OSC_TONE and OSC_CLICK (40_oscillator.md). -/

namespace Sys2Proof.Machine

/-- `osc_sine` (40_oscillator.md R71): the sample of the phase before it advances, and the phase after. The wrap is one
conditional subtraction of 1 (R72). -/
def oscSine {α : Type} (N : Numerics α) (P : Params α) (phase frequency : α) : α × α :=
  let sample := N.sin (N.mul N.twoPi phase)
  let inc := N.div frequency P.sampleRate
  let p1 := N.add phase inc
  let phase' := if N.ge p1 (N.const 1) then N.sub p1 (N.const 1) else p1
  (sample, phase')

/-- `osc_reset` (40_oscillator.md R75). -/
def oscReset {α : Type} (N : Numerics α) : α := N.const 0

/-- TONE.SINE on the unit bus (40_oscillator.md R73). -/
def toneSine {α : Type} (N : Numerics α) (P : Params α) (frequency : α) (v : VoiceState α) : α × VoiceState α :=
  let r := oscSine N P v.tonePhase frequency
  (r.1, { v with tonePhase := r.2 })

/-- CLICK.SINE on the unit bus (40_oscillator.md R74). -/
def clickSine {α : Type} (N : Numerics α) (P : Params α) (frequency : α) (v : VoiceState α) : α × VoiceState α :=
  let r := oscSine N P v.clickPhase frequency
  (r.1, { v with clickPhase := r.2 })

/-- TONE.RESET on the unit bus (40_oscillator.md R76). -/
def toneReset {α : Type} (N : Numerics α) (v : VoiceState α) : VoiceState α := { v with tonePhase := oscReset N }

/-- CLICK.RESET on the unit bus (40_oscillator.md R77). -/
def clickReset {α : Type} (N : Numerics α) (v : VoiceState α) : VoiceState α := { v with clickPhase := oscReset N }

/-! ### On a block -/

variable {α : Type} [Zero α] [One α] [LT α]

/-- TONE.SINE on a block (40_oscillator.md R73). -/
def runToneSine (B : Block α) (frequency : α) (s : RunState α) : Host.Outcome (RunState α) Fault Refusal :=
  let r := toneSine B.num B.params frequency s.voice
  finish B.num [frequency, r.1, r.2.tonePhase] ({ s with voice := r.2 }.answer (.num r.1))

/-- TONE.RESET on a block (40_oscillator.md R76). -/
def runToneReset (B : Block α) (s : RunState α) : Host.Outcome (RunState α) Fault Refusal :=
  .next ({ s with voice := toneReset B.num s.voice }.answer .done)

/-- CLICK.SINE on a block (40_oscillator.md R74). -/
def runClickSine (B : Block α) (frequency : α) (s : RunState α) : Host.Outcome (RunState α) Fault Refusal :=
  let r := clickSine B.num B.params frequency s.voice
  finish B.num [frequency, r.1, r.2.clickPhase] ({ s with voice := r.2 }.answer (.num r.1))

/-- CLICK.RESET on a block (40_oscillator.md R77). -/
def runClickReset (B : Block α) (s : RunState α) : Host.Outcome (RunState α) Fault Refusal :=
  .next ({ s with voice := clickReset B.num s.voice }.answer .done)

/-! ### On the machine -/

/-- TONE.SINE frequency (40_oscillator.md R73). -/
def execToneSine (frequency : Number) (s : State) : Host.Outcome State Fault Refusal :=
  s.lift (runToneSine s.block frequency s.toRunState)

/-- TONE.RESET (40_oscillator.md R76). -/
def execToneReset (s : State) : Host.Outcome State Fault Refusal := s.lift (runToneReset s.block s.toRunState)

/-- CLICK.SINE frequency (40_oscillator.md R74). -/
def execClickSine (frequency : Number) (s : State) : Host.Outcome State Fault Refusal :=
  s.lift (runClickSine s.block frequency s.toRunState)

/-- CLICK.RESET (40_oscillator.md R77). -/
def execClickReset (s : State) : Host.Outcome State Fault Refusal := s.lift (runClickReset s.block s.toRunState)

end Sys2Proof.Machine
end

