-- ==== Sys2Proof/Machine/Sweep.lean ====
section
/-! DEFINITION. The pitch sweep SWEEP (42_sweep_envelope.md). -/

namespace Sys2Proof.Machine

/-- `sweep_value` (42_sweep_envelope.md R121). The comparison comes first (R126). -/
def sweepValue {α : Type} (N : Numerics α) (P : Params α) (c : α) : α :=
  if N.ge c P.pitchDecayTime then
    P.endFrequency
  else
    let progress := N.div c P.pitchDecayTime
    let curve := N.sub (N.const 1) (N.exp (N.mul (N.sub (N.const 0) P.kCurve) progress))
    N.add P.startFrequency (N.mul (N.sub P.endFrequency P.startFrequency) curve)

/-- SWP.ADVANCE on the unit bus (42_sweep_envelope.md R123). -/
def swpAdvance {α : Type} (N : Numerics α) (P : Params α) (v : VoiceState α) : VoiceState α :=
  { v with currentTime := N.add v.currentTime (samplePeriod N P) }

/-- SWP.RESET on the unit bus (42_sweep_envelope.md R124). -/
def swpReset {α : Type} (N : Numerics α) (v : VoiceState α) : VoiceState α := { v with currentTime := N.const 0 }

/-! ### On a block -/

variable {α : Type} [Zero α] [One α] [LT α]

/-- SWP.VALUE on a block (42_sweep_envelope.md R122). -/
def runSwpValue (B : Block α) (s : RunState α) : Host.Outcome (RunState α) Fault Refusal :=
  let f := sweepValue B.num B.params s.voice.currentTime
  finish B.num [f] (s.answer (.num f))

/-- SWP.ADVANCE on a block (42_sweep_envelope.md R123). -/
def runSwpAdvance (B : Block α) (s : RunState α) : Host.Outcome (RunState α) Fault Refusal :=
  let v := swpAdvance B.num B.params s.voice
  finish B.num [v.currentTime] ({ s with voice := v }.answer .done)

/-- SWP.RESET on a block (42_sweep_envelope.md R124). -/
def runSwpReset (B : Block α) (s : RunState α) : Host.Outcome (RunState α) Fault Refusal :=
  .next ({ s with voice := swpReset B.num s.voice }.answer .done)

/-- SWP.TIME on a block (42_sweep_envelope.md R125). -/
def runSwpTime (B : Block α) (s : RunState α) : Host.Outcome (RunState α) Fault Refusal :=
  finish B.num [s.voice.currentTime] (s.answer (.num s.voice.currentTime))

/-! ### On the machine -/

/-- SWP.VALUE (42_sweep_envelope.md R122). -/
def execSwpValue (s : State) : Host.Outcome State Fault Refusal := s.lift (runSwpValue s.block s.toRunState)

/-- SWP.ADVANCE (42_sweep_envelope.md R123). -/
def execSwpAdvance (s : State) : Host.Outcome State Fault Refusal := s.lift (runSwpAdvance s.block s.toRunState)

/-- SWP.RESET (42_sweep_envelope.md R124). -/
def execSwpReset (s : State) : Host.Outcome State Fault Refusal := s.lift (runSwpReset s.block s.toRunState)

/-- SWP.TIME (42_sweep_envelope.md R125). -/
def execSwpTime (s : State) : Host.Outcome State Fault Refusal := s.lift (runSwpTime s.block s.toRunState)

end Sys2Proof.Machine
end

