-- ==== Sys2Proof/Machine/Voice.lean ====
section
/-! DEFINITION. The voice unit VOICE and the four commands (43_voice_mixer.md). -/

namespace Sys2Proof.Machine

/-- TRIGGER's five statements (43_voice_mixer.md R142), in the order written; S4 and S5 are not written. -/
def voiceTrigger {α : Type} (N : Numerics α) (v : VoiceState α) : VoiceState α :=
  let v := toneReset N v
  let v := clickReset N v
  let v := swpReset N v
  let v := envTrigger N v
  { v with isPlaying := true }

/-- The click layer (43_voice_mixer.md R144, step 3): the sine, scaled by `CLICK_LEVEL`, then by its own decay. -/
def clickLayer {α : Type} (N : Numerics α) (P : Params α) (csin tc : α) : α :=
  let decay := N.exp (N.mul (N.sub (N.const 0) P.kClickDecay) tc)
  N.mul (N.mul csin P.clickLevel) decay

/-- The mix (43_voice_mixer.md R144, step 4). -/
def mix {α : Type} (N : Numerics α) (P : Params α) (tone click amp : α) : α :=
  N.mul (N.mul (N.add tone click) amp) P.kOutAtten

/-- NEXT_SAMPLE while playing (43_voice_mixer.md R144), its six steps: the sample is computed from the state before
time advances (R145), and the decision to stop is taken after. -/
def playingSample {α : Type} (N : Numerics α) (P : Params α) (v : VoiceState α) : α × VoiceState α :=
  let f := sweepValue N P v.currentTime
  let amp := envValue N P v
  let tone := toneSine N P f v
  let csin := clickSine N P (N.mul P.kClickRatio f) tone.2
  let click := clickLayer N P csin.1 csin.2.currentTime
  let out := mix N P tone.1 click amp
  let v := swpAdvance N P csin.2
  let v := envAdvance N P v
  (out, stopIfFinished N P v)

/-- NEXT_SAMPLE (43_voice_mixer.md R143, R144): silence, and nothing read or written, while not playing. -/
def nextSample {α : Type} (N : Numerics α) (P : Params α) (v : VoiceState α) : α × VoiceState α :=
  if v.isPlaying then playingSample N P v else (N.const 0, v)

/-- The values that a pull carries on the unit bus and on the response port, and writes to registers, in the order of
43_voice_mixer.md R144; none while not playing (R143). -/
def pullValues {α : Type} (N : Numerics α) (P : Params α) (v : VoiceState α) : List α :=
  if v.isPlaying then
    let f := sweepValue N P v.currentTime
    let f8 := N.mul P.kClickRatio f
    let tone := oscSine N P v.tonePhase f
    let click := oscSine N P v.clickPhase f8
    let r := playingSample N P v
    [f, envValue N P v, tone.1, tone.2, f8, click.1, click.2, v.currentTime, r.1, r.2.currentTime, r.2.elapsedTime]
  else []

/-! ### On a block -/

variable {α : Type} [Zero α] [One α] [LT α]

/-- NOP on a block (43_voice_mixer.md R141). -/
def runNop (B : Block α) (s : RunState α) : Host.Outcome (RunState α) Fault Refusal :=
  .next (s.respond (B.num.const 0))

/-- TRIGGER on a block (43_voice_mixer.md R142). -/
def runTrigger (B : Block α) (s : RunState α) : Host.Outcome (RunState α) Fault Refusal :=
  .next ({ s with voice := voiceTrigger B.num s.voice }.respond (B.num.const 0))

/-- NEXT_SAMPLE on a block (43_voice_mixer.md R143, R144). -/
def runNextSample (B : Block α) (s : RunState α) : Host.Outcome (RunState α) Fault Refusal :=
  let r := nextSample B.num B.params s.voice
  finish B.num (pullValues B.num B.params s.voice) ({ s with voice := r.2 }.respond r.1)

/-- NOTE_OFF on a block (43_voice_mixer.md R146: ENV.RELEASE and nothing else). -/
def runNoteOff (B : Block α) (s : RunState α) : Host.Outcome (RunState α) Fault Refusal :=
  finish B.num (captured B.num B.params s.voice)
    ({ s with voice := envRelease B.num B.params s.voice }.respond (B.num.const 0))

/-! ### On the machine -/

/-- NOP (43_voice_mixer.md R141). -/
def execNop (s : State) : Host.Outcome State Fault Refusal := s.lift (runNop s.block s.toRunState)

/-- TRIGGER (43_voice_mixer.md R142). -/
def execTrigger (s : State) : Host.Outcome State Fault Refusal := s.lift (runTrigger s.block s.toRunState)

/-- NEXT_SAMPLE (43_voice_mixer.md R143, R144). -/
def execNextSample (s : State) : Host.Outcome State Fault Refusal := s.lift (runNextSample s.block s.toRunState)

/-- NOTE_OFF (43_voice_mixer.md R146: ENV.RELEASE and nothing else). -/
def execNoteOff (s : State) : Host.Outcome State Fault Refusal := s.lift (runNoteOff s.block s.toRunState)

end Sys2Proof.Machine
end

