-- ==== Sys2Proof/Machine/Dispatch.lean ====
section
/-! DEFINITION. One arm per operation: a direct call of its meaning. -/

namespace Sys2Proof.Machine

/-- What an operation does. -/
def exec (i : Instr) (s : State) : Host.Outcome State Fault Refusal :=
  match i with
  | .nop => Sys2Proof.Machine.execNop s
  | .trigger => Sys2Proof.Machine.execTrigger s
  | .nextSample => Sys2Proof.Machine.execNextSample s
  | .noteOff => Sys2Proof.Machine.execNoteOff s
  | .toneSine frequency => Sys2Proof.Machine.execToneSine frequency s
  | .toneReset => Sys2Proof.Machine.execToneReset s
  | .clickSine frequency => Sys2Proof.Machine.execClickSine frequency s
  | .clickReset => Sys2Proof.Machine.execClickReset s
  | .envValue => Sys2Proof.Machine.execEnvValue s
  | .envAdvance => Sys2Proof.Machine.execEnvAdvance s
  | .envTrigger => Sys2Proof.Machine.execEnvTrigger s
  | .envRelease => Sys2Proof.Machine.execEnvRelease s
  | .envFinished => Sys2Proof.Machine.execEnvFinished s
  | .swpValue => Sys2Proof.Machine.execSwpValue s
  | .swpAdvance => Sys2Proof.Machine.execSwpAdvance s
  | .swpReset => Sys2Proof.Machine.execSwpReset s
  | .swpTime => Sys2Proof.Machine.execSwpTime s

end Sys2Proof.Machine
end

