-- ==== Sys2Proof/Machine/Events.lean ====
section
/-! DEFINITION. The host's events as operations and scripts become them. -/

namespace Sys2Proof.Machine

/-- The event that presents an operation on the port it travels on (30_encoding.md R59, R60). -/
def eventOf (i : Instr) : HostEvent Number :=
  match i.port with
  | .command => .command (opWord i)
  | .unitBus => .unitOp (opWord i) (operand i)

/-- The same event with its operand in another number type. -/
def HostEvent.map {α β : Type} (f : α → β) : HostEvent α → HostEvent β
  | .idle => .idle
  | .rst => .rst
  | .command op => .command op
  | .unitOp op arg => .unitOp op (f arg)

/-- The event that presents a table word: on the port its `unit` field names, the operand zero (log 11). -/
def tableEvent (_nbits w : Nat) : HostEvent Number :=
  let op := BitVec.ofNat 6 w
  if unitField op = 0b000#3 then .command op else .unitOp op 0

/-- The refusal for a word the unit bus does not carry (30_encoding.md R59, R61). -/
def unitBusRefusal (op : OpWord) : UnitBusError → Refusal
  | .reserved _ => .reservedUnitWord op
  | .voiceWord => .voiceWordOnUnitBus op

end Sys2Proof.Machine
end

