-- ==== Sys2Proof/Machine/Step.lean ====
section
/-! DEFINITION. One step: KVC takes the host's next event (70_reset_and_hazards.md R204, R205). -/

namespace Sys2Proof.Machine

/-- The machine with its block's state changed. -/
def State.onRun (s : State) (f : RunState Number → RunState Number) : State := { s with toRunState := f s.toRunState }

/-- One step. With nothing pending the host holds `cmd_valid = 0` and KVC does nothing (30_encoding.md R55). -/
def step (s : State) : Host.Outcome State Fault Refusal :=
  match s.pending with
  | [] => .next (s.onRun (.accept []))
  | .idle :: rest => .next (s.onRun (.accept rest))
  | .rst :: rest => .next ((s.onRun (.accept rest)).onRun (.applyReset (s.ops.const 0)))
  | .command op :: rest =>
    match decodeCmd op with
    | some i => exec i (s.onRun (.accept rest))
    | none => .next ((s.onRun (.accept rest)).onRun (.takeCmdError op))
  | .unitOp op arg :: rest =>
    match decodeUnitOp ⟨op, arg⟩ with
    | .ok i => exec i (s.onRun (.accept rest))
    | .error e => .refused (unitBusRefusal op e)

/-- `s` with one table word as the host's next event (log 6, log 11), so that the very next step runs it: a VOICE word
on the command port, any other on the unit bus with the operand 0. -/
def State.withFetchWord (s : State) (nbits w : Nat) : State := { s with pending := tableEvent nbits w :: s.pending }

end Sys2Proof.Machine
end

