-- ==== Sys2Proof/Machine/OnBlock.lean ====
section
/-! DEFINITION. A block over any number format: its operations and its step, with the numerics record NUM and the
configuration as parameters (00_scope.md R10, 10_state.md R31). The machine of Step.lean is the block of its
configuration; the reals are another (Safety.lean). -/

namespace Sys2Proof.Machine

variable {α : Type} [Zero α] [One α] [LT α]

/-- What an operation does on a block. The operand stands beside the operation, as it does beside the word
(30_encoding.md R53), because it is a value of the block's own format. -/
def execOf (B : Block α) (i : Instr) (arg : α) (s : RunState α) : Host.Outcome (RunState α) Fault Refusal :=
  match i with
  | .nop => runNop B s
  | .trigger => runTrigger B s
  | .nextSample => runNextSample B s
  | .noteOff => runNoteOff B s
  | .toneSine _ => runToneSine B arg s
  | .toneReset => runToneReset B s
  | .clickSine _ => runClickSine B arg s
  | .clickReset => runClickReset B s
  | .envValue => runEnvValue B s
  | .envAdvance => runEnvAdvance B s
  | .envTrigger => runEnvTrigger B s
  | .envRelease => runEnvRelease B s
  | .envFinished => runEnvFinished B s
  | .swpValue => runSwpValue B s
  | .swpAdvance => runSwpAdvance B s
  | .swpReset => runSwpReset B s
  | .swpTime => runSwpTime B s

/-- One step of a block: it takes the host's next event (70_reset_and_hazards.md R204, R205). With nothing pending the host
holds `cmd_valid = 0` and KVC does nothing (30_encoding.md R55). -/
def stepOf (B : Block α) (s : RunState α) : Host.Outcome (RunState α) Fault Refusal :=
  match s.pending with
  | [] => .next (s.accept [])
  | .idle :: rest => .next (s.accept rest)
  | .rst :: rest => .next ((s.accept rest).applyReset (B.num.const 0))
  | .command op :: rest =>
    match decodeCmd op with
    | some i => execOf B i (B.num.const 0) (s.accept rest)
    | none => .next ((s.accept rest).takeCmdError op)
  | .unitOp op arg :: rest =>
    match decodeUnitOp ⟨op, 0⟩ with
    | .ok i => execOf B i arg (s.accept rest)
    | .error e => .refused (unitBusRefusal op e)

end Sys2Proof.Machine
end

