-- ==== Sys2Proof/Machine/Script.lean ====
section
/-! DEFINITION. Host scripts and unit-bus traces (30_encoding.md R63), and the two pseudo-instructions (R64): from text
to lines, from lines to operations, from operations to the host's events. -/

namespace Sys2Proof.Machine

/-! ### From text to lines -/

/-- The text of a line before its comment: a `#` starts a comment to the end of the line (30_encoding.md R63). -/
def dropComment : List Char → List Char
  | [] => []
  | c :: cs => if c = '#' then [] else c :: dropComment cs

/-- The words of a line, in order; blanks and tabs separate them (log 13). `word` is the word being read. -/
def wordsFrom (word : List Char) : List Char → List (List Char)
  | [] => if word = [] then [] else [word]
  | c :: cs =>
    if c = ' ' ∨ c = '\t' then (if word = [] then wordsFrom [] cs else word :: wordsFrom [] cs)
    else wordsFrom (word ++ [c]) cs

/-- The words of a line without its comment. -/
def lineWords (line : List Char) : List (List Char) := wordsFrom [] (dropComment line)

/-- The lines of a text. `line` is the line being read. -/
def linesFrom (line : List Char) : List Char → List (List Char)
  | [] => [line]
  | c :: cs => if c = '\n' then line :: linesFrom [] cs else linesFrom (line ++ [c]) cs

/-- The value of a decimal digit. -/
def digit (c : Char) : Option Nat :=
  if '0' ≤ c ∧ c ≤ '9' then some (c.toNat - '0'.toNat) else none

/-- The digits of a decimal natural number read after `n`. -/
def digitsFrom (n : Nat) : List Char → Option Nat
  | [] => some n
  | c :: cs =>
    match digit c with
    | none => none
    | some d => digitsFrom (10 * n + d) cs

/-- A decimal natural number: one digit or more. -/
def parseNat (w : List Char) : Option Nat := if w = [] then none else digitsFrom 0 w

/-- The part of a word before its first `.`, and the part after it where there is one. -/
def splitPoint : List Char → List Char × Option (List Char)
  | [] => ([], none)
  | c :: cs => if c = '.' then ([], some cs) else (c :: (splitPoint cs).1, (splitPoint cs).2)

/-- A decimal number without a sign: digits, or digits, a point and digits. -/
def parseUnsigned (w : List Char) : Option Number :=
  match splitPoint w with
  | (whole, none) => (parseNat whole).map fun n => (n : Number)
  | (whole, some frac) =>
    match parseNat whole, parseNat frac with
    | some n, some m => some (n + (m : Number) / (10 : Number) ^ frac.length)
    | _, _ => none

/-- A decimal number (30_encoding.md R63: `150`, `-3`). -/
def parseDecimal : List Char → Option Number
  | '-' :: w => (parseUnsigned w).map fun x => -x
  | w => parseUnsigned w

/-- The mnemonics without an operand (30_encoding.md R52). -/
def plainMnemonics : List (String × Instr) :=
  [ ("NOP", .nop),
    ("TRIGGER", .trigger),
    ("NEXT_SAMPLE", .nextSample),
    ("NOTE_OFF", .noteOff),
    ("TONE.RESET", .toneReset),
    ("CLICK.RESET", .clickReset),
    ("ENV.VALUE", .envValue),
    ("ENV.ADVANCE", .envAdvance),
    ("ENV.TRIGGER", .envTrigger),
    ("ENV.RELEASE", .envRelease),
    ("ENV.FINISHED", .envFinished),
    ("SWP.VALUE", .swpValue),
    ("SWP.ADVANCE", .swpAdvance),
    ("SWP.RESET", .swpReset),
    ("SWP.TIME", .swpTime) ]

/-- The operation that a word names alone. -/
def parseMnemonic (w : List Char) : Option Instr :=
  (plainMnemonics.find? fun row => decide (row.1.toList = w)).map Prod.snd

/-- A line as its words: a mnemonic, with one operand in format U1, or a pseudo-instruction (30_encoding.md R63, R64). The
operand here is the decimal number as written; that `const` of the format makes a `Num` of it, when the script is
presented (RunState.withScript), is a DESIGN CHOICE (log 17), on which the spec is silent. -/
def parseWords : List (List Char) → Option ScriptLine
  | [] => some .blank
  | [w] => if w = "RETRIGGER".toList then some .retrigger else (parseMnemonic w).map .operation
  | [w, x] =>
    if w = "TONE.SINE".toList then (parseDecimal x).map fun f => .operation (.toneSine f)
    else if w = "CLICK.SINE".toList then (parseDecimal x).map fun f => .operation (.clickSine f)
    else if w = "NEXT_SAMPLE".toList then
      match x with
      | '*' :: k => (parseNat k).map .nextSampleTimes
      | _ => none
    else none
  | _ => none

/-! ### From lines to operations (30_encoding.md R64) -/

/-- What a line stands for: `NEXT_SAMPLE *k` is `k` lines, `RETRIGGER` is TRIGGER. -/
def expandLine : ScriptLine → List Instr
  | .blank => []
  | .operation i => [i]
  | .nextSampleTimes k => List.replicate k .nextSample
  | .retrigger => [.trigger]

/-- The port of a script: a host program holds commands, a unit-bus trace unit operations (30_encoding.md R63). -/
def lineOn (port : Port) (l : ScriptLine) : Bool := (expandLine l).all (Instr.wfOn port)

/-- A script in text, for one port; `none` when a line is none of that port's. -/
def parseScript (port : Port) (text : String) : Option (List ScriptLine) :=
  match (linesFrom [] text.toList).mapM (fun line => parseWords (lineWords line)) with
  | none => none
  | some ls => if ls.all (lineOn port) then some ls else none

/-! ### From operations to events -/

/-- The events of a script, executed top to bottom with no branching (30_encoding.md R63), with the decimal operands as
written. -/
def scriptEvents (ls : List ScriptLine) : List (HostEvent Number) := (ls.flatMap expandLine).map eventOf

/-- A block's state with a script as the host's next events. DESIGN CHOICE (log 17): a decimal operand becomes a `Num` by
`const` of the block's format, as the literals and the configuration values do (00_scope.md R10). -/
def RunState.withScript {α : Type} (N : Numerics α) (ls : List ScriptLine) (s : RunState α) : RunState α :=
  { s with pending := s.pending ++ (scriptEvents ls).map (HostEvent.map N.const) }

/-- The machine with a script as the host's next events. -/
def State.withScript (s : State) (ls : List ScriptLine) : State :=
  { s with toRunState := s.toRunState.withScript s.ops ls }

end Sys2Proof.Machine
end

