-- ==== Sys2Proof/Safety.lean ====
section
/-! DEFINITION. The terms the claims use: runs and what is observed of them (70_reset_and_hazards.md R204), the
invariants of the spec (10_state.md R39, 41_adsr_envelope.md R102), and the reals as NUM of a block
(00_scope.md R10). -/

namespace Sys2Proof.Machine

/-! ### Events and runs -/

/-- An event that reaches KVC through a port of its own: all but a line of a unit-bus trace (30_encoding.md R59). -/
def HostEvent.onPort {α : Type} : HostEvent α → Bool
  | .idle => true
  | .rst => true
  | .command _ => true
  | .unitOp _ _ => false

/-- Only the ports drive the block: the unit bus is not reachable from outside (30_encoding.md R59). -/
def RunState.portOnly {α : Type} (s : RunState α) : Prop := ∀ e ∈ s.pending, e.onPort = true

/-- `k` steps. -/
def runSteps (k : Nat) (s : State) : Host.Outcome State Fault Refusal := Host.Core.run Sys2Proof.core k s

/-- `k` steps of a block. -/
def runStepsOf {α : Type} [Zero α] [One α] [LT α] (B : Block α) : Nat → RunState α → Host.Outcome (RunState α) Fault Refusal
  | 0, s => .next s
  | k + 1, s =>
    match stepOf B s with
    | .next t => runStepsOf B k t
    | .fault f => .fault f
    | .refused r => .refused r

/-- What is observed of `k` steps: after each, the response and `playing` (70_reset_and_hazards.md R204). -/
def observations : Nat → State → List (Option (Response Number) × Bool)
  | 0, _ => []
  | k + 1, s =>
    match step s with
    | .next t => (t.rsp, t.playing) :: observations k t
    | .fault _ => []
    | .refused _ => []

/-- The pull as the host presents it. -/
def pull {α : Type} : HostEvent α := .command 0b000010#6

/-- The trigger as the host presents it. -/
def trig {α : Type} : HostEvent α := .command 0b000001#6

/-- An event that cannot end a voice: neither NOTE_OFF nor a reset nor a unit-bus operation (43_voice_mixer.md R148). -/
def HostEvent.keepsVoice {α : Type} : HostEvent α → Bool
  | .idle => true
  | .rst => false
  | .command op => decide (op ≠ 0b000011#6)
  | .unitOp _ _ => false

/-! ### The invariants of the reachable state (10_state.md R39, 00_scope.md R14) -/

/-- Every value that stands in a state element or on a port is finite (00_scope.md R14). -/
structure FiniteValues (s : State) : Prop where
  tone : s.ops.finite s.voice.tonePhase = true
  click : s.ops.finite s.voice.clickPhase = true
  current : s.ops.finite s.voice.currentTime = true
  elapsed : s.ops.finite s.voice.elapsedTime = true
  level : s.ops.finite s.voice.releaseStartLevel = true
  start : s.ops.finite s.voice.releaseStartTime = true
  rsp : ∀ d, s.rsp = some (.data d) → s.ops.finite d = true
  bus : ∀ v, s.bus = some (.num v) → s.ops.finite v = true

/-- The clauses of 10_state.md R39 that hold in every number format: (a) the two clocks agree, and (b) a voice that is
not playing is not active; they need that no unit operation comes from outside VOICE (30_encoding.md R59). -/
structure Lockstep (s : State) : Prop where
  ports : s.portOnly
  clocks : s.voice.currentTime = s.voice.elapsedTime
  stopped : s.voice.isPlaying = false → s.voice.isActive = false

/-- The parameter ranges of 41_adsr_envelope.md R102. -/
structure SensibleEnvelope {α : Type} [Zero α] [One α] [LE α] (P : Params α) : Prop where
  attack : 0 ≤ P.attackTime
  decay : 0 ≤ P.decayTime
  release : 0 ≤ P.releaseTime
  sustain_nonneg : 0 ≤ P.sustainLevel
  sustain_le_one : P.sustainLevel ≤ 1

/-- What 10_state.md R39 (c) and the ranges of 41_adsr_envelope.md R99 and R102 say of a state. -/
structure VoiceBounds {α : Type} [Zero α] [One α] [LE α] (v : VoiceState α) : Prop where
  elapsed : 0 ≤ v.elapsedTime
  current : 0 ≤ v.currentTime
  level_nonneg : 0 ≤ v.releaseStartLevel
  level_le_one : v.releaseStartLevel ≤ 1
  started : v.isActive = false → v.releaseStartTime ≤ v.elapsedTime

/-- A state of the exact format under those parameter ranges, within those bounds. -/
structure ExactBounds (s : State) : Prop where
  exact : s.cfg.num = .exact
  sensible : SensibleEnvelope s.params
  voice : VoiceBounds s.voice

/-- A voice that plays and whose host will neither release nor reset it (43_voice_mixer.md R148). -/
structure Sounding (s : State) : Prop where
  events : ∀ e ∈ s.pending, e.keepsVoice = true
  active : s.voice.isActive = true
  playing : s.voice.isPlaying = true

/-- Two states that no host can tell apart: the same configuration and the same events to come, both silent or both
playing, and while playing the same phases and clocks and, once released, the same capture (10_state.md R38,
43_voice_mixer.md R142 and R150). In a format with values that are not finite a stopped voice is inactive too, as 10_state.md R39 (b) says of the
reachable states: a release would capture a level there, which might not be finite. -/
structure SameView (s t : State) : Prop where
  cfg : s.cfg = t.cfg
  pending : s.pending = t.pending
  ports : s.portOnly
  playing : s.voice.isPlaying = t.voice.isPlaying
  stopped : s.voice.isPlaying = false → s.cfg.num = .exact ∨ (s.voice.isActive = false ∧ t.voice.isActive = false)
  tone : s.voice.isPlaying = true → s.voice.tonePhase = t.voice.tonePhase
  click : s.voice.isPlaying = true → s.voice.clickPhase = t.voice.clickPhase
  current : s.voice.isPlaying = true → s.voice.currentTime = t.voice.currentTime
  elapsed : s.voice.isPlaying = true → s.voice.elapsedTime = t.voice.elapsedTime
  active : s.voice.isPlaying = true → s.voice.isActive = t.voice.isActive
  level : s.voice.isPlaying = true → s.voice.isActive = false →
    s.voice.releaseStartLevel = t.voice.releaseStartLevel
  start : s.voice.isPlaying = true → s.voice.isActive = false →
    s.voice.releaseStartTime = t.voice.releaseStartTime

/-! ### NUM -/

/-- The reals as NUM (00_scope.md R10): the format in which every "exactly" of the spec holds. -/
noncomputable def realNumerics : Numerics ℝ where
  finite := fun _ => true
  nan := fun _ => false
  add := fun a b => a + b
  sub := fun a b => a - b
  mul := fun a b => a * b
  div := fun a b => a / b
  lt := fun a b => decide (a < b)
  ge := fun a b => decide (b ≤ a)
  sin := Real.sin
  exp := Real.exp
  const := fun c => (c : ℝ)
  twoPi := 2 * Real.pi

/-- The block whose NUM is the reals (00_scope.md R10), for any configuration with a positive sample rate. -/
noncomputable def realBlock (P : Params ℝ) (h : 0 < P.sampleRate) : Block ℝ where
  num := realNumerics
  lawful := by
    constructor <;> intros <;> simp [realNumerics]
    simp only [← decide_not, not_lt]
  params := P
  valid := by simp [Params.wf, realNumerics, h]

end Sys2Proof.Machine
end

