-- ==== Sys2Proof/Certificates/Slice0/Obligations.lean ====
section
/-! DEFINITION. The statements for the provers, each a rule of the spec or a consequence of its rules. A statement about
one operation names the word it is encoded as, the state it answers, written as an update of the state before (every
field not named keeps its value), and that it answers; it holds in every number format and every configuration. Its
premise, where it has one, is that the values the operation carries or writes are finite (00_scope.md R14, as log 4
reads it); in exact arithmetic all are. -/

open Sys2Proof Sys2Proof.Machine

/-! ### The oscillators -/

/-- 40_oscillator.md R73 with R71: the sample of the phase before it advances; the phase advances by
`frequency / SAMPLE_RATE` and is wrapped by one conditional subtraction of 1; nothing else is written. -/
def Obligations.ToneSineReadsThenAdvances : Prop :=
  ∀ (f : Number) (s : State),
    let N := s.ops
    let sample := N.sin (N.mul N.twoPi s.voice.tonePhase)
    let p1 := N.add s.voice.tonePhase (N.div f s.params.sampleRate)
    let phase := if N.ge p1 (N.const 1) then N.sub p1 (N.const 1) else p1
    encode (.toneSine f) = ⟨0x08#6, f⟩ ∧
    ((∀ x ∈ [f, sample, phase], N.finite x = true) →
      exec (.toneSine f) s = .next { s with
        voice := { s.voice with tonePhase := phase }
        bus := some (.num sample) })

/-- 40_oscillator.md R74 with R71: CLICK.SINE does to S1 what TONE.SINE does to S0. -/
def Obligations.ClickSineReadsThenAdvances : Prop :=
  ∀ (f : Number) (s : State),
    let N := s.ops
    let sample := N.sin (N.mul N.twoPi s.voice.clickPhase)
    let p1 := N.add s.voice.clickPhase (N.div f s.params.sampleRate)
    let phase := if N.ge p1 (N.const 1) then N.sub p1 (N.const 1) else p1
    encode (.clickSine f) = ⟨0x10#6, f⟩ ∧
    ((∀ x ∈ [f, sample, phase], N.finite x = true) →
      exec (.clickSine f) s = .next { s with
        voice := { s.voice with clickPhase := phase }
        bus := some (.num sample) })

/-- 40_oscillator.md R76 and R77: each RESET zeroes its own phase, from any phase, and writes nothing else. -/
def Obligations.OscillatorResetsZeroTheirPhase : Prop :=
  ∀ s : State,
    (opWord .toneReset = 0x09#6 ∧
      exec .toneReset s = .next { s with voice := { s.voice with tonePhase := 0 }, bus := some .done }) ∧
    (opWord .clickReset = 0x11#6 ∧
      exec .clickReset s = .next { s with voice := { s.voice with clickPhase := 0 }, bus := some .done })

/-- 40_oscillator.md R78: in exact arithmetic, from a phase in [0, 1) and with an increment in [0, 1], each SINE leaves
its phase in [0, 1). -/
def Obligations.PhaseStaysInUnitIntervalForUnitIncrements : Prop :=
  ∀ (f : Number) (s : State), s.cfg.num = .exact →
    0 ≤ f / s.params.sampleRate → f / s.params.sampleRate ≤ 1 →
    (0 ≤ s.voice.tonePhase → s.voice.tonePhase < 1 →
      ∃ t, exec (.toneSine f) s = .next t ∧ 0 ≤ t.voice.tonePhase ∧ t.voice.tonePhase < 1) ∧
    (0 ≤ s.voice.clickPhase → s.voice.clickPhase < 1 →
      ∃ t, exec (.clickSine f) s = .next t ∧ 0 ≤ t.voice.clickPhase ∧ t.voice.clickPhase < 1)

/-- 40_oscillator.md R79 to R81: in exact arithmetic, with increment `f / SAMPLE_RATE`: a negative phase sum is left
negative, a sum of 2 or more is left at 1 or more, a sum of exactly 1 becomes 0, and a zero frequency does not move a
phase below 1. -/
def Obligations.PhaseWrapIsOneSubtraction : Prop :=
  ∀ (f : Number) (s : State), s.cfg.num = .exact →
    let sum := s.voice.tonePhase + f / s.params.sampleRate
    ∃ t, exec (.toneSine f) s = .next t ∧
      (sum < 0 → t.voice.tonePhase = sum ∧ t.voice.tonePhase < 0) ∧
      (2 ≤ sum → t.voice.tonePhase = sum - 1 ∧ 1 ≤ t.voice.tonePhase) ∧
      (sum = 1 → t.voice.tonePhase = 0) ∧
      (f = 0 → s.voice.tonePhase < 1 → t.voice.tonePhase = s.voice.tonePhase)

/-- 40_oscillator.md R83: the first SINE after a RESET returns 0 whatever its frequency, in every format; it is performed
whenever the frequency and the new phase are finite (00_scope.md R14). -/
def Obligations.FirstSineAfterResetIsZero : Prop :=
  ∀ (f : Number) (s : State),
    let N := s.ops
    let p1 := N.add 0 (N.div f s.params.sampleRate)
    let phase := if N.ge p1 (N.const 1) then N.sub p1 (N.const 1) else p1
    (∃ t, exec .toneReset s = .next t ∧
      (N.finite f = true → N.finite phase = true → ∃ u, exec (.toneSine f) t = .next u) ∧
      (∀ u, exec (.toneSine f) t = .next u → u.bus = some (.num 0))) ∧
    (∃ t, exec .clickReset s = .next t ∧
      (N.finite f = true → N.finite phase = true → ∃ u, exec (.clickSine f) t = .next u) ∧
      (∀ u, exec (.clickSine f) t = .next u → u.bus = some (.num 0)))

/-! ### The amplitude envelope -/

/-- 41_adsr_envelope.md R94 with R92 and R93: ENV.VALUE returns the value of the stage, comparing before it divides, and
writes no state element. -/
def Obligations.EnvValueReturnsTheStageValue : Prop :=
  ∀ s : State,
    let N := s.ops
    let P := s.params
    let t := s.voice.elapsedTime
    let e := N.sub t s.voice.releaseStartTime
    let value :=
      if s.voice.isActive then
        if N.lt t P.attackTime then N.div t P.attackTime
        else if N.lt t (N.add P.attackTime P.decayTime) then
          N.sub (N.const 1) (N.mul (N.sub (N.const 1) P.sustainLevel) (N.div (N.sub t P.attackTime) P.decayTime))
        else P.sustainLevel
      else if N.lt e P.releaseTime then
        N.mul s.voice.releaseStartLevel (N.sub (N.const 1) (N.div e P.releaseTime))
      else 0
    opWord .envValue = 0x18#6 ∧
    (N.finite value = true → exec .envValue s = .next { s with bus := some (.num value) })

/-- 41_adsr_envelope.md R95: ENV.ADVANCE adds one sample period to `elapsed_time` in every stage. -/
def Obligations.EnvAdvanceAddsOneSamplePeriod : Prop :=
  ∀ s : State,
    let N := s.ops
    let t := N.add s.voice.elapsedTime (N.div (N.const 1) s.params.sampleRate)
    opWord .envAdvance = 0x19#6 ∧
    (N.finite t = true →
      exec .envAdvance s = .next { s with voice := { s.voice with elapsedTime := t }, bus := some .done })

/-- 41_adsr_envelope.md R96: ENV.TRIGGER zeroes `elapsed_time` and sets `is_active`; the captured level and time stay.
ENV.VALUE then is 0 when ATTACK_TIME is positive; in exact arithmetic it is 1 when only DECAY_TIME is, and SUSTAIN_LEVEL
when both are zero. A second ENV.TRIGGER changes nothing. -/
def Obligations.EnvTriggerRestartsTheEnvelope : Prop :=
  ∀ s : State,
    let P := s.params
    opWord .envTrigger = 0x1A#6 ∧
    ∃ t, t = { s with voice := { s.voice with elapsedTime := 0, isActive := true }, bus := some .done } ∧
      exec .envTrigger s = .next t ∧ exec .envTrigger t = .next t ∧
      (0 < P.attackTime → exec .envValue t = .next { t with bus := some (.num 0) }) ∧
      (s.cfg.num = .exact → P.attackTime = 0 → 0 < P.decayTime →
        exec .envValue t = .next { t with bus := some (.num 1) }) ∧
      (s.cfg.num = .exact → P.attackTime = 0 → P.decayTime = 0 →
        exec .envValue t = .next { t with bus := some (.num P.sustainLevel) })

/-- 41_adsr_envelope.md R97: an active envelope captures the value ENV.VALUE returns and the time, and becomes inactive;
an inactive one changes nothing. -/
def Obligations.EnvReleaseCapturesOnce : Prop :=
  ∀ s : State,
    let a := envValue s.ops s.params s.voice
    opWord .envRelease = 0x1B#6 ∧
    (s.voice.isActive = true → s.ops.finite a = true → s.ops.finite s.voice.elapsedTime = true →
      exec .envValue s = .next { s with bus := some (.num a) } ∧
      exec .envRelease s = .next { s with
        voice := { s.voice with
          releaseStartLevel := a, releaseStartTime := s.voice.elapsedTime, isActive := false }
        bus := some .done }) ∧
    (s.voice.isActive = false → exec .envRelease s = .next { s with bus := some .done })

/-- 41_adsr_envelope.md R98: ENV.FINISHED answers true exactly when the envelope is inactive and the time since the
release began has reached RELEASE_TIME, and writes no state element; where that time is no NaN it is exactly the stage Idle
(R91), and then ENV.VALUE returns 0; it is never true of an active envelope, and true at once after ENV.RELEASE when
RELEASE_TIME is not positive. -/
def Obligations.EnvFinishedIsTheIdleStage : Prop :=
  ∀ s : State,
    let e := s.ops.sub s.voice.elapsedTime s.voice.releaseStartTime
    let finished := !s.voice.isActive && s.ops.ge e s.params.releaseTime
    opWord .envFinished = 0x1C#6 ∧
    exec .envFinished s = .next { s with bus := some (.flag finished) } ∧
    (s.ops.nan e = false → (finished = true ↔ stage s.ops s.params s.voice = .idle)) ∧
    (s.ops.nan e = false → finished = true → exec .envValue s = .next { s with bus := some (.num 0) }) ∧
    (s.voice.isActive = true → finished = false) ∧
    (s.voice.isActive = true → s.params.releaseTime ≤ 0 → s.ops.finite s.voice.elapsedTime = true →
      s.ops.finite (envValue s.ops s.params s.voice) = true →
      ∃ t, exec .envRelease s = .next t ∧ exec .envFinished t = .next { t with bus := some (.flag true) })

/-- 41_adsr_envelope.md R99 and 42_sweep_envelope.md R126: in exact arithmetic a pull never divides by zero or by a
negative number, whatever the time constants: with any other quotient for those divisors the sample and the state
after it are the same, in every state whose clocks have not run backward. -/
def Obligations.NoDivisionByANonPositiveNumberIsReached : Prop :=
  ∀ (d : Number → Number → Number) (P : Params Number) (v : VoiceState Number),
    (∀ a b, 0 < b → d a b = a / b) → 0 < P.sampleRate → 0 ≤ v.elapsedTime → 0 ≤ v.currentTime →
    (v.isActive = false → v.releaseStartTime ≤ v.elapsedTime) →
    nextSample { numerics .exact with div := d } P v = nextSample (numerics .exact) P v ∧
    envRelease { numerics .exact with div := d } P v = envRelease (numerics .exact) P v

/-- 41_adsr_envelope.md R100 and R101 over the reals: with positive attack and decay times the active value is 1 at the
attack-to-decay boundary and continuous there, is SUSTAIN_LEVEL from the decay-to-sustain boundary on, and is
continuous there too. -/
def Obligations.EnvelopeIsContinuousAtItsBoundaries : Prop :=
  ∀ P : Params ℝ, 0 < P.attackTime → 0 < P.decayTime →
    envValueActive realNumerics P P.attackTime = 1 ∧
    ContinuousAt (envValueActive realNumerics P) P.attackTime ∧
    (∀ t, P.attackTime + P.decayTime ≤ t → envValueActive realNumerics P t = P.sustainLevel) ∧
    ContinuousAt (envValueActive realNumerics P) (P.attackTime + P.decayTime)

/-- 41_adsr_envelope.md R97: in exact arithmetic with a positive release time the value just after the capture is the
value just before it, so the envelope is continuous across NOTE_OFF. -/
def Obligations.ReleaseStartsFromTheCapturedLevel : Prop :=
  ∀ s : State, s.cfg.num = .exact → s.voice.isActive = true → 0 < s.params.releaseTime →
    ∃ t, exec .noteOff s = .next t ∧ t.voice.isActive = false ∧
      envValue t.ops t.params t.voice = envValue s.ops s.params s.voice ∧
      t.voice.releaseStartLevel = envValue s.ops s.params s.voice

/-! ### The sweep -/

/-- 42_sweep_envelope.md R122 with R121: SWP.VALUE returns END_FREQUENCY once the duration is over, before any
arithmetic, and the exponential interpolation before that; it writes no state element. -/
def Obligations.SweepValueInterpolatesThenClamps : Prop :=
  ∀ s : State,
    let N := s.ops
    let P := s.params
    let c := s.voice.currentTime
    let progress := N.div c P.pitchDecayTime
    let curve := N.sub (N.const 1) (N.exp (N.mul (N.sub (N.const 0) P.kCurve) progress))
    let value :=
      if N.ge c P.pitchDecayTime then P.endFrequency
      else N.add P.startFrequency (N.mul (N.sub P.endFrequency P.startFrequency) curve)
    opWord .swpValue = 0x20#6 ∧
    (N.finite value = true → exec .swpValue s = .next { s with bus := some (.num value) })

/-- 42_sweep_envelope.md R123, R124 and R125: SWP.ADVANCE adds one sample period to `current_time`, without limit;
SWP.RESET zeroes it, a second one changing nothing, and SWP.VALUE then is START_FREQUENCY when PITCH_DECAY_TIME is
positive (and the difference of the two frequencies is finite, as N_mul0 of 00_scope.md R11 needs) and END_FREQUENCY when
it is not; SWP.TIME returns it. -/
def Obligations.SweepClockOperations : Prop :=
  ∀ s : State,
    let c := s.ops.add s.voice.currentTime (s.ops.div (s.ops.const 1) s.params.sampleRate)
    (opWord .swpAdvance = 0x21#6 ∧
      (s.ops.finite c = true →
        exec .swpAdvance s = .next { s with voice := { s.voice with currentTime := c }, bus := some .done })) ∧
    (opWord .swpReset = 0x22#6 ∧
      ∃ t, t = { s with voice := { s.voice with currentTime := 0 }, bus := some .done } ∧
        exec .swpReset s = .next t ∧ exec .swpReset t = .next t ∧
        (0 < s.params.pitchDecayTime → s.ops.finite (s.ops.sub s.params.endFrequency s.params.startFrequency) = true →
          exec .swpValue t = .next { t with bus := some (.num s.params.startFrequency) }) ∧
        (s.params.pitchDecayTime ≤ 0 →
          exec .swpValue t = .next { t with bus := some (.num s.params.endFrequency) })) ∧
    (opWord .swpTime = 0x23#6 ∧
      (s.ops.finite s.voice.currentTime = true →
        exec .swpTime s = .next { s with bus := some (.num s.voice.currentTime) }))

/-- 42_sweep_envelope.md R127 and R126, in every format: at `current_time = 0` the sweep is exactly START_FREQUENCY when
the duration is positive and END_FREQUENCY when it is not, and from the duration on it is exactly END_FREQUENCY. The
first needs that the difference of the two frequencies is finite, as N_mul0 does (00_scope.md R11). -/
def Obligations.SweepEndPointsAreExact : Prop :=
  ∀ cfg : Configuration,
    let N := numerics cfg.num
    let P := cfg.params
    (0 < P.pitchDecayTime → N.finite (N.sub P.endFrequency P.startFrequency) = true →
      sweepValue N P 0 = P.startFrequency) ∧
    (P.pitchDecayTime ≤ 0 → sweepValue N P 0 = P.endFrequency) ∧
    (∀ c, N.finite c = true → P.pitchDecayTime ≤ c → sweepValue N P c = P.endFrequency)

/-- 42_sweep_envelope.md R128 over the reals: the sweep moves monotonically from START_FREQUENCY to END_FREQUENCY as time
goes on from 0, its last step included, and never leaves the interval between them; K_CURVE is any number that is not
negative, as the source's 5 is. -/
def Obligations.SweepIsMonotoneAndBetweenItsEnds : Prop :=
  ∀ P : Params ℝ, 0 ≤ P.kCurve →
    (P.startFrequency ≤ P.endFrequency → MonotoneOn (sweepValue realNumerics P) (Set.Ici 0)) ∧
    (P.endFrequency ≤ P.startFrequency → AntitoneOn (sweepValue realNumerics P) (Set.Ici 0)) ∧
    (∀ c, 0 ≤ c → sweepValue realNumerics P c ∈ Set.uIcc P.startFrequency P.endFrequency)

/-! ### The commands -/

/-- 43_voice_mixer.md R141: NOP answers 0 and changes nothing else. -/
def Obligations.NopOnlyAnswers : Prop :=
  ∀ s : State, opWord .nop = 0x00#6 ∧ exec .nop s = .next { s with rsp := some (.data 0) }

/-- 43_voice_mixer.md R142: TRIGGER zeroes both phases and both clocks and sets both flags, from any state; the captured
level and time stay; the response is 0. -/
def Obligations.TriggerRestartsTheVoice : Prop :=
  ∀ s : State,
    opWord .trigger = 0x01#6 ∧
    exec .trigger s = .next { s with
      voice := { tonePhase := 0, clickPhase := 0, currentTime := 0, elapsedTime := 0,
                 releaseStartLevel := s.voice.releaseStartLevel, releaseStartTime := s.voice.releaseStartTime,
                 isActive := true, isPlaying := true }
      rsp := some (.data 0) }

/-- 43_voice_mixer.md R143: NEXT_SAMPLE while not playing answers 0 and writes no state element. -/
def Obligations.NextSampleIsSilentWhileStopped : Prop :=
  ∀ s : State, s.voice.isPlaying = false →
    opWord .nextSample = 0x02#6 ∧ exec .nextSample s = .next { s with rsp := some (.data 0) }

/-- 43_voice_mixer.md R144: NEXT_SAMPLE while playing, its six steps in the spec's evaluation order: the sample from the
state before time advances, the two phases and the two clocks advanced, and the voice stopped if the advanced
envelope has finished. -/
def Obligations.NextSampleComputesThenAdvances : Prop :=
  ∀ s : State, s.voice.isPlaying = true →
    let N := s.ops
    let P := s.params
    let v := s.voice
    let wrap := fun p => if N.ge p (N.const 1) then N.sub p (N.const 1) else p
    let DT := N.div (N.const 1) P.sampleRate
    let f := sweepValue N P v.currentTime
    let f8 := N.mul P.kClickRatio f
    let amp := envValue N P v
    let tone := N.sin (N.mul N.twoPi v.tonePhase)
    let csin := N.sin (N.mul N.twoPi v.clickPhase)
    let decay := N.exp (N.mul (N.sub (N.const 0) P.kClickDecay) v.currentTime)
    let click := N.mul (N.mul csin P.clickLevel) decay
    let out := N.mul (N.mul (N.add tone click) amp) P.kOutAtten
    let advanced : VoiceState Number := { v with
      tonePhase := wrap (N.add v.tonePhase (N.div f P.sampleRate))
      clickPhase := wrap (N.add v.clickPhase (N.div f8 P.sampleRate))
      currentTime := N.add v.currentTime DT
      elapsedTime := N.add v.elapsedTime DT }
    (∀ x ∈ [f, amp, tone, f8, csin, v.currentTime, out, advanced.tonePhase, advanced.clickPhase, advanced.currentTime,
      advanced.elapsedTime], N.finite x = true) →
    exec .nextSample s = .next { s with
      voice := { advanced with isPlaying := !envIsFinished N P advanced }
      rsp := some (.data out) }

/-- 43_voice_mixer.md R146: NOTE_OFF releases an active envelope, capturing the value ENV.VALUE returns and the time, and
changes nothing when the envelope is inactive; the response is 0 and the voice goes on playing. -/
def Obligations.NoteOffReleasesTheEnvelope : Prop :=
  ∀ s : State,
    let a := envValue s.ops s.params s.voice
    opWord .noteOff = 0x03#6 ∧
    (s.voice.isActive = true → s.ops.finite a = true → s.ops.finite s.voice.elapsedTime = true →
      exec .envValue s = .next { s with bus := some (.num a) } ∧
      exec .noteOff s = .next { s with
        voice := { s.voice with
          releaseStartLevel := a, releaseStartTime := s.voice.elapsedTime, isActive := false }
        rsp := some (.data 0) }) ∧
    (s.voice.isActive = false → exec .noteOff s = .next { s with rsp := some (.data 0) })

/-- 20_memory.md R43: two TRIGGER with nothing between leave the same state as one. -/
def Obligations.TriggerIsIdempotent : Prop :=
  ∀ s : State, ∃ t, exec .trigger s = .next t ∧ exec .trigger t = .next t

/-- 43_voice_mixer.md R149 and 20_memory.md R47, in every format: a TRIGGER and then a pull, from any state, give the
sample of time index 0: it is exactly 0, the amplitude it used is 0 when ATTACK_TIME is positive, and the sweep value
it used is START_FREQUENCY when PITCH_DECAY_TIME is positive. In exact arithmetic the pull always answers; in a format
with values that are not finite it is refused when it meets one (00_scope.md R14), and what it answers rests on
`0 * x = 0` (log 12). -/
def Obligations.FirstSampleAfterTriggerIsZero : Prop :=
  ∀ (s : State) (rest : List (HostEvent Number)), s.pending = trig :: pull :: rest →
    ∃ t, step s = .next t ∧
      (s.cfg.num = .exact → ∃ u, step t = .next u) ∧
      (∀ u, step t = .next u → u.rsp = some (.data 0) ∧ u.pending = rest) ∧
      (0 < s.params.attackTime → envValue t.ops t.params t.voice = 0) ∧
      (0 < s.params.pitchDecayTime → s.ops.finite (s.ops.sub s.params.endFrequency s.params.startFrequency) = true →
        sweepValue t.ops t.params t.voice.currentTime = s.params.startFrequency)

/-- 43_voice_mixer.md R147 and 41_adsr_envelope.md R102: in exact arithmetic, in a state of ExactBounds, where the two
sines lie in [-1, 1] and the click's decay in [0, 1], the sample is at most `|K_OUT_ATTEN| * (1 + |CLICK_LEVEL|)` in
magnitude. -/
def Obligations.SampleMagnitudeIsBounded : Prop :=
  ∀ s : State, ExactBounds s → s.voice.isPlaying = true →
    |s.ops.sin (s.ops.mul s.ops.twoPi s.voice.tonePhase)| ≤ 1 →
    |s.ops.sin (s.ops.mul s.ops.twoPi s.voice.clickPhase)| ≤ 1 →
    0 ≤ s.ops.exp (-s.params.kClickDecay * s.voice.currentTime) →
    s.ops.exp (-s.params.kClickDecay * s.voice.currentTime) ≤ 1 →
    ∃ t d, exec .nextSample s = .next t ∧ t.rsp = some (.data d) ∧
      |d| ≤ |s.params.kOutAtten| * (1 + |s.params.clickLevel|)

/-- 43_voice_mixer.md R147 and 41_adsr_envelope.md R102 over the reals, where the sines and the decay have their ranges:
the bound of the output, for a pull with an amplitude in [0, 1]; and, with the parameters of R102, for every step of the
block from a state of VoiceBounds, which every step keeps. Driven by its ports, the block over the reals always answers. -/
def Obligations.RealSampleMagnitudeIsBounded : Prop :=
  ∀ P : Params ℝ, 0 ≤ P.kClickDecay →
    (∀ v : VoiceState ℝ, 0 ≤ v.currentTime → 0 ≤ envValue realNumerics P v → envValue realNumerics P v ≤ 1 →
      |(nextSample realNumerics P v).1| ≤ |P.kOutAtten| * (1 + |P.clickLevel|)) ∧
    (∀ (h : 0 < P.sampleRate) (s : RunState ℝ), SensibleEnvelope P → VoiceBounds s.voice →
      (s.portOnly → ∃ t, stepOf (realBlock P h) s = .next t ∧ t.portOnly) ∧
      (∀ t, stepOf (realBlock P h) s = .next t → VoiceBounds t.voice ∧
        ∀ d, t.rsp = some (.data d) → |d| ≤ |P.kOutAtten| * (1 + |P.clickLevel|)))

/-- 70_reset_and_hazards.md R199 with 40_oscillator.md R78, over the reals: a host that chooses both ends of the sweep so
that neither oscillator's frequency is negative or above SAMPLE_RATE (with K_CLICK_RATIO = 8, `0 ≤ 8 f ≤ SAMPLE_RATE`)
keeps both phases in [0, 1) through every pull. -/
def Obligations.RealVoicePhasesStayInUnitInterval : Prop :=
  ∀ (P : Params ℝ) (v : VoiceState ℝ), 0 < P.sampleRate → 0 ≤ v.currentTime → 0 ≤ P.kCurve → 1 ≤ P.kClickRatio →
    0 ≤ P.startFrequency → P.kClickRatio * P.startFrequency ≤ P.sampleRate →
    0 ≤ P.endFrequency → P.kClickRatio * P.endFrequency ≤ P.sampleRate →
    v.tonePhase ∈ Set.Ico 0 1 → v.clickPhase ∈ Set.Ico 0 1 →
    (nextSample realNumerics P v).2.tonePhase ∈ Set.Ico 0 1 ∧
    (nextSample realNumerics P v).2.clickPhase ∈ Set.Ico 0 1

/-! ### All operations -/

/-- 60_exceptions.md R170: none of the seventeen operations raises anything, in any state: no fault, and a command is
never answered with an error. Each answers a next state in exact arithmetic, and in any other format too unless it meets a
value that is not finite (00_scope.md R14); a command answers with a response, a unit operation on the unit bus. -/
def Obligations.NoOperationFails : Prop :=
  ∀ (i : Instr) (s : State),
    (s.cfg.num = .exact → ∃ t, exec i s = .next t) ∧
    ((∃ t, exec i s = .next t) ∨ exec i s = .refused .nonFinite) ∧
    (∀ t, exec i s = .next t →
      (i.port = .command → t.rspValid = true ∧ t.rspErr = false) ∧
      (i.port = .unitBus → t.bus.isSome = true ∧ t.rsp = s.rsp))

/-- 00_scope.md R14 as the model reads it (log 4, DEDUCED): R14 refuses on reaching a NaN or an infinity as a configuration
value, operand or state value, and names no point of an operation. The model's reading is that an operation, on a block
over any number type, is refused whole when such a value is its operand, a value on the unit bus inside it, its result or
the new value of a state element. The machine's operations are those of its block. -/
def Obligations.NonFiniteValuesAreRefused : Prop :=
  (∀ (α : Type) [Zero α] [One α] [LT α] (B : Block α) (s : RunState α) (i : Instr) (arg : α),
    let N := B.num
    let P := B.params
    let v := s.voice
    let bad := fun x => N.finite x = false
    (match i with
      | .toneSine _ => bad arg ∨ bad (toneSine N P arg v).1 ∨ bad (toneSine N P arg v).2.tonePhase
      | .clickSine _ => bad arg ∨ bad (clickSine N P arg v).1 ∨ bad (clickSine N P arg v).2.clickPhase
      | .envValue => bad (envValue N P v)
      | .envRelease | .noteOff => v.isActive = true ∧ (bad (envValue N P v) ∨ bad v.elapsedTime)
      | .swpValue => bad (sweepValue N P v.currentTime)
      | .envAdvance => bad (envAdvance N P v).elapsedTime
      | .swpAdvance => bad (swpAdvance N P v).currentTime
      | .swpTime => bad v.currentTime
      | .nextSample => v.isPlaying = true ∧
          (bad (sweepValue N P v.currentTime) ∨ bad (envValue N P v) ∨
            bad (N.mul P.kClickRatio (sweepValue N P v.currentTime)) ∨
            bad (N.sin (N.mul N.twoPi v.tonePhase)) ∨ bad (N.sin (N.mul N.twoPi v.clickPhase)) ∨
            bad v.currentTime ∨ bad (nextSample N P v).1 ∨
            bad (nextSample N P v).2.tonePhase ∨ bad (nextSample N P v).2.clickPhase ∨
            bad (nextSample N P v).2.currentTime ∨ bad (nextSample N P v).2.elapsedTime)
      | .nop | .trigger | .toneReset | .clickReset | .envTrigger | .envFinished | .swpReset => False) →
    execOf B i arg s = .refused .nonFinite) ∧
  (∀ (i : Instr) (s : State),
    exec i s = .refused .nonFinite ↔ execOf s.block i (operand i) s.toRunState = .refused .nonFinite)

/-- 30_encoding.md R52, the column "writes": an operation that changes a state element is one of those the table lists
for it; no operation changes the configuration (10_state.md R31) or the host's part. -/
def Obligations.OnlyListedOperationsWriteAnElement : Prop :=
  ∀ (i : Instr) (s t : State), exec i s = .next t →
    (t.voice.tonePhase ≠ s.voice.tonePhase →
      i = .trigger ∨ i = .nextSample ∨ i = .toneReset ∨ ∃ f, i = .toneSine f) ∧
    (t.voice.clickPhase ≠ s.voice.clickPhase →
      i = .trigger ∨ i = .nextSample ∨ i = .clickReset ∨ ∃ f, i = .clickSine f) ∧
    (t.voice.currentTime ≠ s.voice.currentTime →
      i = .trigger ∨ i = .nextSample ∨ i = .swpAdvance ∨ i = .swpReset) ∧
    (t.voice.elapsedTime ≠ s.voice.elapsedTime →
      i = .trigger ∨ i = .nextSample ∨ i = .envAdvance ∨ i = .envTrigger) ∧
    (t.voice.releaseStartLevel ≠ s.voice.releaseStartLevel → i = .noteOff ∨ i = .envRelease) ∧
    (t.voice.releaseStartTime ≠ s.voice.releaseStartTime → i = .noteOff ∨ i = .envRelease) ∧
    (t.voice.isActive ≠ s.voice.isActive →
      i = .trigger ∨ i = .noteOff ∨ i = .envTrigger ∨ i = .envRelease) ∧
    (t.voice.isPlaying ≠ s.voice.isPlaying → i = .trigger ∨ i = .nextSample) ∧
    t.cfg = s.cfg ∧ t.pending = s.pending ∧ t.freeCount = s.freeCount

/-! ### Decoding -/

/-- 30_encoding.md R52, R53, R60: every operation decodes from the word and operand it is encoded as, on its own port
too, with every operand. -/
def Obligations.DecodeOfEncodeIsTheOperation : Prop :=
  ∀ i : Instr, i.wf = true →
    decode (encode i) = .ok i ∧
    (i.wfOn .command = true → decodeCmd (opWord i) = some i) ∧
    (i.wfOn .unitBus = true → decodeUnitOp (encode i) = .ok i)

/-- 30_encoding.md R52: decoding reads no other word: a word and operand decode to an operation exactly when the word is
that operation's and, for the two SINE, the operand is its frequency; so each defined word has one meaning. -/
def Obligations.DecodeAcceptsOnlyTheOperationsWord : Prop :=
  ∀ (p : Packet) (i : Instr),
    decode p = .ok i ↔ (opWord i = p.op ∧ ∀ f, i = .toneSine f ∨ i = .clickSine f → f = p.arg)

/-- Words of 30_encoding.md R52, one or more of each unit, decode to the operations they stand for. -/
def Obligations.TableWordsDecode : Prop :=
  decode ⟨0b000010#6, 0⟩ = .ok .nextSample ∧ decode ⟨0b000011#6, 0⟩ = .ok .noteOff ∧
  decode ⟨0b001000#6, 150⟩ = .ok (.toneSine 150) ∧ decode ⟨0b010000#6, -3⟩ = .ok (.clickSine (-3)) ∧
  decode ⟨0b011011#6, 0⟩ = .ok .envRelease ∧ decode ⟨0b100011#6, 0⟩ = .ok .swpTime ∧
  decode ⟨0b101000#6, 0⟩ = .error .reservedUnit ∧ decode ⟨0b011101#6, 0⟩ = .error .reservedUop

/-- 30_encoding.md R60: `decode_cmd` accepts the four commands' words, each as its command, and no other of the 64. -/
def Obligations.CommandPortAcceptsFourWords : Prop :=
  ∀ op : OpWord,
    (op = 0x00#6 ∧ decodeCmd op = some .nop) ∨ (op = 0x01#6 ∧ decodeCmd op = some .trigger) ∨
    (op = 0x02#6 ∧ decodeCmd op = some .nextSample) ∨ (op = 0x03#6 ∧ decodeCmd op = some .noteOff) ∨
    (4 ≤ op.toNat ∧ decodeCmd op = none)

/-! ### Steps -/

/-- 30_encoding.md R55 and R60: with a command's word next, the step runs that command on the state in which the word has
been taken: the response and the unit bus of the step before are gone, and the model's own counter has advanced
(log 6, log 9). -/
def Obligations.StepRunsTheDecodedCommand : Prop :=
  ∀ (s : State) (op : OpWord) (rest : List (HostEvent Number)) (i : Instr),
    s.pending = .command op :: rest → decodeCmd op = some i →
    step s = exec i { s with rsp := none, bus := none, pending := rest, freeCount := s.freeCount + 1 }

/-- 30_encoding.md R59 and R63: with a line of a unit-bus trace next, the step runs that unit operation, the same way
(log 8). -/
def Obligations.StepRunsTheDecodedUnitOperation : Prop :=
  ∀ (s : State) (op : OpWord) (arg : Number) (rest : List (HostEvent Number)) (i : Instr),
    s.pending = .unitOp op arg :: rest → decodeUnitOp ⟨op, arg⟩ = .ok i →
    step s = exec i { s with rsp := none, bus := none, pending := rest, freeCount := s.freeCount + 1 }

/-- 30_encoding.md R60 and 60_exceptions.md R171: each of the 60 words that is no command is answered by CmdError: the
response is an error with data 0, no state element is written, `playing` is unchanged, and the host's next event is
taken as if the word had not come, but for the model's own counter (log 7: the machine goes on). -/
def Obligations.IllegalWordRaisesCmdError : Prop :=
  ∀ (s : State) (op : OpWord) (rest : List (HostEvent Number)), s.pending = .command op :: rest → 4 ≤ op.toNat →
    ∃ t, step s = .next t ∧
      t = { s with
        rsp := some (.error (.cmdError op)), bus := none, pending := rest, freeCount := s.freeCount + 1 } ∧
      t.rspValid = true ∧ t.rspErr = true ∧ t.rspData = 0 ∧ t.playing = s.playing ∧
      step t = step { s with pending := rest, freeCount := s.freeCount + 1 }

/-- 30_encoding.md R61 and R59: the unit bus refuses every reserved word, and every word of VOICE, by name (log 8). -/
def Obligations.UnitBusRefusesReservedWords : Prop :=
  ∀ (s : State) (op : OpWord) (arg : Number) (rest : List (HostEvent Number)), s.pending = .unitOp op arg :: rest →
    let unit := (unitField op).toNat
    let uop := (uopField op).toNat
    ((unit = 1 ∨ unit = 2) ∧ 2 ≤ uop ∨ unit = 3 ∧ 5 ≤ uop ∨ unit = 4 ∧ 4 ≤ uop ∨ 5 ≤ unit ∨ unit = 0 ∧ 4 ≤ uop →
      step s = .refused (.reservedUnitWord op)) ∧
    (unit = 0 ∧ uop < 4 → step s = .refused (.voiceWordOnUnitBus op))

/-- 70_reset_and_hazards.md R190 and R191: an edge with `rst = 1` takes every state element to its reset value, from any
state, with no response; the configuration stays, and so does the host's part (log 6), but for the event taken and the
model's own counter (log 9). -/
def Obligations.RstTakesTheResetValues : Prop :=
  ∀ (s : State) (rest : List (HostEvent Number)), s.pending = .rst :: rest →
    step s = .next { s with
      voice := { tonePhase := 0, clickPhase := 0, currentTime := 0, elapsedTime := 0, releaseStartLevel := 0,
                 releaseStartTime := 0, isActive := false, isPlaying := false }
      rsp := none, bus := none, pending := rest, freeCount := s.freeCount + 1 }

/-- 10_state.md R38: after reset, under every configuration, every state element is 0 or false; ENV.VALUE answers 0, and
ENV.FINISHED answers false when RELEASE_TIME is positive and true when it is not. In a format other than the exact one
ENV.VALUE's 0 is a product with the zero on the left and rests on `0 * x = 0` (log 12). -/
def Obligations.ResetStateIsZero : Prop :=
  ∀ cfg : Configuration,
    let s := State.resetWith cfg
    s.cfg = cfg ∧
    s.voice = { tonePhase := 0, clickPhase := 0, currentTime := 0, elapsedTime := 0, releaseStartLevel := 0,
                releaseStartTime := 0, isActive := false, isPlaying := false } ∧
    exec .envValue s = .next { s with bus := some (.num 0) } ∧
    (0 < cfg.params.releaseTime → exec .envFinished s = .next { s with bus := some (.flag false) }) ∧
    (cfg.params.releaseTime ≤ 0 → exec .envFinished s = .next { s with bus := some (.flag true) })

/-- 30_encoding.md R55: while no command is accepted KVC does nothing: with nothing from the host, or with the host
holding `cmd_valid = 0`, no state element changes and there is no response; the model's own counter
advances (log 6, log 9). -/
def Obligations.NothingHappensWithoutACommand : Prop :=
  ∀ (s : State) (rest : List (HostEvent Number)), (s.pending = [] ∧ rest = []) ∨ s.pending = .idle :: rest →
    step s = .next { s with rsp := none, bus := none, pending := rest, freeCount := s.freeCount + 1 }

/-- 70_reset_and_hazards.md R204 and 30_encoding.md R56: the block never stops: driven by its ports alone every step
answers a next state, with a response exactly when a command was accepted, unless, in a format other than the exact one,
it meets a value that is not finite (00_scope.md R14). -/
def Obligations.EveryCommandGetsOneResponse : Prop :=
  ∀ s : State, s.portOnly →
    (∃ t, step s = .next t ∧ t.portOnly ∧
      (t.rspValid = true ↔ ∃ op rest, s.pending = .command op :: rest)) ∨
    (s.cfg.num ≠ .exact ∧ step s = .refused .nonFinite)

/-- 00_scope.md R10 and 10_state.md R31: the machine's step is the step of the block of its configuration, whose fields
are the numerics record NUM and the configuration values in that format; the configuration stays. -/
def Obligations.StepIsTheBlocksStep : Prop :=
  ∀ s : State, step s = s.lift (stepOf ⟨s.ops, numerics_lawful s.cfg.num, s.params, s.cfg.valid⟩ s.toRunState)

/-- 10_state.md R31 and 70_reset_and_hazards.md R191: no step changes a configuration value; that a reset is no exception
is the model's reading (log 14). -/
def Obligations.NoStepChangesTheConfiguration : Prop :=
  ∀ s t : State, step s = .next t → t.cfg = s.cfg

/-- 10_state.md R27: `playing` rises only in a step that takes TRIGGER, and falls only in a step that takes NEXT_SAMPLE
and leaves a finished envelope, or at a reset. -/
def Obligations.PlayingChangesOnlyAsTheRuleSays : Prop :=
  ∀ s t : State, step s = .next t →
    (s.playing = false → t.playing = true → ∃ rest, s.pending = trig :: rest) ∧
    (s.playing = true → t.playing = false →
      ∃ rest, s.pending = .rst :: rest ∨
        (s.pending = pull :: rest ∧ envIsFinished t.ops t.params t.voice = true))

/-- 60_exceptions.md R181: in the reachable states (Lockstep) a voice that is not playing keeps every state element until
a TRIGGER or a reset, and every pull it gets is answered with 0. -/
def Obligations.StoppedVoiceIsFrozenUntilTrigger : Prop :=
  ∀ s t : State, Lockstep s → s.playing = false → step s = .next t →
    (t.voice = s.voice ∨ ∃ rest, s.pending = trig :: rest ∨ s.pending = .rst :: rest) ∧
    (∀ rest, s.pending = pull :: rest → t.voice = s.voice ∧ t.rsp = some (.data 0))

/-! ### Invariants -/

/-- 10_state.md R39 (a) and (b): every step keeps the two clocks equal and a stopped voice inactive. -/
def Obligations.LockstepIsKeptByEveryStep : Prop :=
  ∀ s t : State, Lockstep s → step s = .next t → Lockstep t

/-- 10_state.md R39 (c) and 41_adsr_envelope.md R102: in exact arithmetic with the parameter ranges of R102, every step
keeps the clocks at 0 or above, the captured level in [0, 1], and, while inactive, the captured time at or before the
clock; unit-bus operations too. -/
def Obligations.ExactBoundsAreKeptByEveryStep : Prop :=
  ∀ s t : State, ExactBounds s → step s = .next t → ExactBounds t

/-- 00_scope.md R14, as the model reads it (log 4): every step keeps every value in a state element and on a port finite,
in every format. -/
def Obligations.FiniteValuesAreKeptByEveryStep : Prop :=
  ∀ s t : State, FiniteValues s → step s = .next t → FiniteValues t

/-- The reset state of every configuration has these invariants, with any events to come (10_state.md R38, R39): Lockstep
where the events are port events, FiniteValues, and ExactBounds in exact arithmetic and in the ranges of
41_adsr_envelope.md R102; the reset state over the reals has VoiceBounds. -/
def Obligations.TheInvariantsHoldAtReset : Prop :=
  (∀ (cfg : Configuration) (es : List (HostEvent Number)),
    let s := { State.resetWith cfg with pending := es }
    ((∀ e ∈ es, e.onPort = true) → Lockstep s) ∧ FiniteValues s ∧
    (cfg.num = .exact → SensibleEnvelope cfg.params → ExactBounds s)) ∧
  VoiceBounds (RunState.atReset (0 : ℝ)).voice

/-- 41_adsr_envelope.md R102: in those states the envelope value lies in [0, 1]. -/
def Obligations.EnvelopeValueIsWithinUnitInterval : Prop :=
  ∀ s : State, ExactBounds s →
    ∃ a, exec .envValue s = .next { s with bus := some (.num a) } ∧ 0 ≤ a ∧ a ≤ 1

/-- 10_state.md R22, R23 and 60_exceptions.md R177: in exact arithmetic a clock goes back only when it is zeroed: by
TRIGGER, by its own unit's operation on the unit bus, or at a reset. -/
def Obligations.ClocksGoBackOnlyWhenZeroed : Prop :=
  ∀ s t : State, s.cfg.num = .exact → step s = .next t →
    (t.voice.currentTime < s.voice.currentTime → t.voice.currentTime = 0 ∧
      ∃ rest, s.pending = trig :: rest ∨ s.pending = .rst :: rest ∨
        ∃ arg, s.pending = .unitOp 0x22#6 arg :: rest) ∧
    (t.voice.elapsedTime < s.voice.elapsedTime → t.voice.elapsedTime = 0 ∧
      ∃ rest, s.pending = trig :: rest ∨ s.pending = .rst :: rest ∨
        ∃ arg, s.pending = .unitOp 0x1A#6 arg :: rest)

/-! ### Runs -/

/-- 43_voice_mixer.md R148: a playing, active voice whose host sends no NOTE_OFF and no reset plays on, active, through
any number of steps; in a format other than the exact one, unless it meets a value that is not finite (00_scope.md R14). -/
def Obligations.VoiceWithoutNoteOffPlaysForever : Prop :=
  ∀ (k : Nat) (s : State), Sounding s →
    (∃ t, runSteps k s = .next t ∧ Sounding t) ∨ (s.cfg.num ≠ .exact ∧ runSteps k s = .refused .nonFinite)

/-- 10_state.md R39 (d) and 43_voice_mixer.md R145: in exact arithmetic and over the reals, after TRIGGER and `n` pulls both
clocks stand at `n / SAMPLE_RATE`, so the next pull uses envelope time `n * DT`. -/
def Obligations.ClocksCountThePulls : Prop :=
  (∀ (n : Nat) (s : State) (rest : List (HostEvent Number)), s.cfg.num = .exact →
    s.pending = trig :: (List.replicate n pull ++ rest) →
    ∃ t, runSteps (n + 1) s = .next t ∧ t.pending = rest ∧ t.playing = true ∧
      t.voice.currentTime = n * (1 / s.params.sampleRate) ∧
      t.voice.elapsedTime = n * (1 / s.params.sampleRate)) ∧
  (∀ (n : Nat) (P : Params ℝ) (h : 0 < P.sampleRate) (s : RunState ℝ) (rest : List (HostEvent ℝ)),
    s.pending = trig :: (List.replicate n pull ++ rest) →
    ∃ t, runStepsOf (realBlock P h) (n + 1) s = .next t ∧ t.pending = rest ∧ t.playing = true ∧
      t.voice.currentTime = n * (1 / P.sampleRate) ∧ t.voice.elapsedTime = n * (1 / P.sampleRate))

/-- 43_voice_mixer.md R146 (c): in exact arithmetic and over the reals a voice that plays and has just been released stops
after exactly as many pulls as it takes `k * DT` to reach RELEASE_TIME, at least one: after `k ≥ 1` pulls it plays still
exactly when `k * DT < RELEASE_TIME`. -/
def Obligations.ReleasedVoiceStopsOnTime : Prop :=
  (∀ (k : Nat) (s : State) (rest : List (HostEvent Number)), s.cfg.num = .exact →
    s.voice.isPlaying = true → s.voice.isActive = false → s.voice.releaseStartTime = s.voice.elapsedTime →
    1 ≤ k → s.pending = List.replicate k pull ++ rest →
    ∃ t, runSteps k s = .next t ∧ t.pending = rest ∧
      (t.playing = true ↔ k * (1 / s.params.sampleRate) < s.params.releaseTime)) ∧
  (∀ (k : Nat) (P : Params ℝ) (h : 0 < P.sampleRate) (s : RunState ℝ) (rest : List (HostEvent ℝ)),
    s.voice.isPlaying = true → s.voice.isActive = false → s.voice.releaseStartTime = s.voice.elapsedTime →
    1 ≤ k → s.pending = List.replicate k pull ++ rest →
    ∃ t, runStepsOf (realBlock P h) k s = .next t ∧ t.pending = rest ∧
      (t.playing = true ↔ k * (1 / P.sampleRate) < P.releaseTime))

/-- 10_state.md R38 and 43_voice_mixer.md R150: two states no host can tell apart (SameView) give the same observations
through any number of steps, in every format; so what stood in S4 and S5 before a TRIGGER never shows. -/
def Obligations.SameViewGivesTheSameObservations : Prop :=
  ∀ (k : Nat) (s t : State), SameView s t → observations k s = observations k t

/-- 43_voice_mixer.md R150: a TRIGGER makes any two states of one configuration indistinguishable from then on, whatever
port events follow. -/
def Obligations.TriggerForgetsThePast : Prop :=
  ∀ (k : Nat) (s t : State) (rest : List (HostEvent Number)), s.cfg = t.cfg →
    s.pending = trig :: rest → t.pending = trig :: rest → (∀ e ∈ rest, e.onPort = true) →
    observations k s = observations k t

/-! ### Number format and script -/

/-- 00_scope.md R11: NUM of every block, over any number type, has the named properties, each written out: `N_exp0`,
`N_sin0`, `N_div0` for every `x > 0` (of the format's own order, an infinite `x` too), `N_mul0`, `N_add0`, `N_sub_self` and
`N_cmp`. Each number format of the machine has them, and so have the reals. -/
def Obligations.EveryFormatHasTheNamedProperties : Prop :=
  (∀ (α : Type) [Zero α] [One α] [LT α] (B : Block α),
    let N := B.num
    N.exp 0 = 1 ∧ N.sin 0 = 0 ∧
    (∀ x, N.nan x = false → N.lt 0 x = true → N.div 0 x = 0) ∧
    (∀ x, N.finite x = true → 0 < x → N.div 0 x = 0) ∧
    (∀ x, N.finite x = true → N.mul x 0 = 0) ∧
    (∀ x, N.add x 0 = x ∧ N.sub x 0 = x) ∧
    (∀ x, N.finite x = true → N.sub x x = 0) ∧ N.sub 1 1 = 0 ∧
    (∀ x y, N.finite x = true → N.finite y = true → (N.lt x y = true ↔ x < y)) ∧
    (∀ x y, N.nan x = false → N.nan y = false → N.ge x y = !N.lt x y)) ∧
  (∀ f : NumFormat, Lawful (numerics f)) ∧ Lawful realNumerics

/-- 30_encoding.md R64: `NEXT_SAMPLE *k` is `k` pulls, none for `k = 0`, and `RETRIGGER` is one TRIGGER. -/
def Obligations.PseudoInstructionsExpand : Prop :=
  (∀ k : Nat, scriptEvents [.nextSampleTimes k] = List.replicate k (.command 0x02#6)) ∧
  scriptEvents [.retrigger] = [.command 0x01#6]
end

