-- ==== Sys2Proof/Laws/Numerics.lean ====
section
/-! SUPPORT. What every NUM with the named properties gives, the operations of each kind of format, and the finite
values of a valid configuration. -/

namespace Sys2Proof

/-! ### Every NUM with the named properties -/

/-- `N_cmp` on finite values, as the exact order (00_scope.md R11). -/
theorem Lawful.lt_eq_decide {α : Type} [Zero α] [One α] [LT α] [DecidableLT α] {N : Numerics α} (L : Lawful N)
    (a b : α) (ha : N.finite a = true) (hb : N.finite b = true) : N.lt a b = decide (a < b) := by
  rw [Bool.eq_iff_iff, L.lt_iff a b ha hb, decide_eq_true_iff]

/-- `N_div0` for a finite divisor, in the order of the number type (00_scope.md R11). -/
theorem Lawful.zero_div_of_finite {α : Type} [Zero α] [One α] [LT α] {N : Numerics α} (L : Lawful N) (a : α)
    (ha : N.finite a = true) (h : 0 < a) : N.div 0 a = 0 :=
  L.zero_div a (L.nan_of_finite a ha) ((L.lt_iff 0 a L.finite_zero ha).mpr h)

end Sys2Proof

namespace Sys2Proof.Machine

/-! ### The exact format -/

@[simp] theorem exact_finite (x : Number) : (numerics .exact).finite x = true := rfl
@[simp] theorem exact_nan (x : Number) : (numerics .exact).nan x = false := rfl
@[simp] theorem exact_add (a b : Number) : (numerics .exact).add a b = a + b := rfl
@[simp] theorem exact_sub (a b : Number) : (numerics .exact).sub a b = a - b := rfl
@[simp] theorem exact_mul (a b : Number) : (numerics .exact).mul a b = a * b := rfl
@[simp] theorem exact_lt (a b : Number) : (numerics .exact).lt a b = decide (a < b) := rfl
@[simp] theorem exact_ge (a b : Number) : (numerics .exact).ge a b = decide (b ≤ a) := rfl
@[simp] theorem exact_const (c : ℚ) : (numerics .exact).const c = c := rfl

theorem exact_div (a b : Number) (h : b ≠ 0) : (numerics .exact).div a b = a / b := if_neg h

/-- Dividing by a positive number, the only kind a run from reset divides by (41_adsr_envelope.md R99). -/
theorem exact_div_of_pos (a b : Number) (h : 0 < b) : (numerics .exact).div a b = a / b := exact_div a b h.ne'

/-- The sample period of a valid configuration in exact arithmetic (10_state.md R33). -/
theorem exact_samplePeriod (P : Params Number) (h : 0 < P.sampleRate) :
    samplePeriod (numerics .exact) P = 1 / P.sampleRate := by
  simp [samplePeriod, exact_div_of_pos _ _ h]

/-! ### Every format: what needs no case split afterwards -/

@[simp] theorem numerics_const_zero (f : NumFormat) : (numerics f).const 0 = 0 := (numerics_lawful f).const_zero

@[simp] theorem numerics_finite_zero (f : NumFormat) : (numerics f).finite 0 = true := (numerics_lawful f).finite_zero

/-- `N_cmp` on finite values (00_scope.md R11). -/
theorem numerics_lt (f : NumFormat) (a b : Number) (ha : (numerics f).finite a = true)
    (hb : (numerics f).finite b = true) : (numerics f).lt a b = decide (a < b) :=
  (numerics_lawful f).lt_eq_decide a b ha hb

/-- `N_cmp` on finite values (00_scope.md R11). -/
theorem numerics_ge (f : NumFormat) (a b : Number) (ha : (numerics f).finite a = true)
    (hb : (numerics f).finite b = true) : (numerics f).ge a b = decide (b ≤ a) := by
  have L := numerics_lawful f
  rw [L.ge_not_lt a b (L.nan_of_finite a ha) (L.nan_of_finite b hb), L.lt_eq_decide a b ha hb, ← decide_not]
  simp only [not_lt]

/-! ### A valid configuration -/

/-- Every configuration value is finite (00_scope.md R14). -/
theorem params_finite (c : Configuration) : ∀ x ∈ c.params.toList, (numerics c.num).finite x = true := by
  have h := c.valid
  simp only [Params.wf, Bool.and_eq_true, List.all_eq_true] at h
  exact h.1.1.1.2

/-- `TWO_PI` and the negated constants of the two exponentials are finite. -/
theorem constants_finite (c : Configuration) :
    (numerics c.num).finite (numerics c.num).twoPi = true ∧
    (numerics c.num).finite ((numerics c.num).sub 0 c.params.kCurve) = true ∧
    (numerics c.num).finite ((numerics c.num).sub 0 c.params.kClickDecay) = true := by
  have h := c.valid
  simp only [Params.wf, Bool.and_eq_true, numerics_const_zero] at h
  exact ⟨h.1.1.2, h.1.2, h.2⟩

/-- A configuration's sample rate is positive, in every format (00_scope.md R9). -/
theorem sampleRate_pos (c : Configuration) : 0 < c.params.sampleRate := by
  have h := c.valid
  simp only [Params.wf, Bool.and_eq_true, numerics_const_zero] at h
  have h1 := h.1.1.1.1
  rw [show (Params.map (numerics c.num).const c.values) = c.params from rfl,
    numerics_lt _ _ _ (numerics_finite_zero _) (params_finite c _ (by simp [Params.toList]))] at h1
  exact of_decide_eq_true h1

end Sys2Proof.Machine
end

