-- ==== Sys2Proof/Laws/PerInstr.lean ====
section
/-! SUPPORT. Statements about every operation as syntax, one lemma per constructor: the family UnitOfWord says that an
operation's word names its unit (30_encoding.md R51) and that one of the two ports carries it. -/

namespace Sys2Proof.Laws.UnitOfWord

/-- The word of `i` has the code of `i`'s unit in its `unit` field, the code is 0 for commands alone
(30_encoding.md R60), and `i` is well formed. -/
def Statement (i : Instr) : Prop :=
  decodeUnitField (unitField (opWord i)) = some i.unit ∧
  (unitField (opWord i) = 0b000#3 ↔ i.port = .command) ∧ i.wf = true

theorem nop : Statement .nop := by unfold Statement; decide
theorem trigger : Statement .trigger := by unfold Statement; decide
theorem nextSample : Statement .nextSample := by unfold Statement; decide
theorem noteOff : Statement .noteOff := by unfold Statement; decide
theorem toneSine (frequency : Number) : Statement (.toneSine frequency) := by
  simp [Statement, opWord, Instr.unit, Instr.port, Instr.wf, Instr.wfOn, unitField, decodeUnitField]
theorem toneReset : Statement .toneReset := by unfold Statement; decide
theorem clickSine (frequency : Number) : Statement (.clickSine frequency) := by
  simp [Statement, opWord, Instr.unit, Instr.port, Instr.wf, Instr.wfOn, unitField, decodeUnitField]
theorem clickReset : Statement .clickReset := by unfold Statement; decide
theorem envValue : Statement .envValue := by unfold Statement; decide
theorem envAdvance : Statement .envAdvance := by unfold Statement; decide
theorem envTrigger : Statement .envTrigger := by unfold Statement; decide
theorem envRelease : Statement .envRelease := by unfold Statement; decide
theorem envFinished : Statement .envFinished := by unfold Statement; decide
theorem swpValue : Statement .swpValue := by unfold Statement; decide
theorem swpAdvance : Statement .swpAdvance := by unfold Statement; decide
theorem swpReset : Statement .swpReset := by unfold Statement; decide
theorem swpTime : Statement .swpTime := by unfold Statement; decide

end Sys2Proof.Laws.UnitOfWord
end

