-- ==== Sys2Proof/Laws/State.lean ====
section
/-! SUPPORT. One lemma per field of the state per shared update, and what an operation that must have finite values can
answer. -/

namespace Sys2Proof.Machine

variable {α : Type}

@[simp] theorem RunState.respond_voice (s : RunState α) (d : α) : (s.respond d).voice = s.voice := rfl
@[simp] theorem RunState.respond_rsp (s : RunState α) (d : α) : (s.respond d).rsp = some (.data d) := rfl
@[simp] theorem RunState.respond_bus (s : RunState α) (d : α) : (s.respond d).bus = s.bus := rfl
@[simp] theorem RunState.respond_pending (s : RunState α) (d : α) : (s.respond d).pending = s.pending := rfl
@[simp] theorem RunState.respond_freeCount (s : RunState α) (d : α) : (s.respond d).freeCount = s.freeCount := rfl

@[simp] theorem RunState.answer_voice (s : RunState α) (r : UnitResult α) : (s.answer r).voice = s.voice := rfl
@[simp] theorem RunState.answer_rsp (s : RunState α) (r : UnitResult α) : (s.answer r).rsp = s.rsp := rfl
@[simp] theorem RunState.answer_bus (s : RunState α) (r : UnitResult α) : (s.answer r).bus = some r := rfl
@[simp] theorem RunState.answer_pending (s : RunState α) (r : UnitResult α) : (s.answer r).pending = s.pending := rfl
@[simp] theorem RunState.answer_freeCount (s : RunState α) (r : UnitResult α) : (s.answer r).freeCount = s.freeCount := rfl

@[simp] theorem RunState.accept_voice (s : RunState α) (rest : List (HostEvent α)) : (s.accept rest).voice = s.voice := rfl
@[simp] theorem RunState.accept_rsp (s : RunState α) (rest : List (HostEvent α)) : (s.accept rest).rsp = none := rfl
@[simp] theorem RunState.accept_bus (s : RunState α) (rest : List (HostEvent α)) : (s.accept rest).bus = none := rfl
@[simp] theorem RunState.accept_pending (s : RunState α) (rest : List (HostEvent α)) : (s.accept rest).pending = rest := rfl
@[simp] theorem RunState.accept_freeCount (s : RunState α) (rest : List (HostEvent α)) : (s.accept rest).freeCount = s.freeCount + 1 := rfl

@[simp] theorem RunState.applyReset_voice (s : RunState α) (zero : α) : (s.applyReset zero).voice = VoiceState.atReset zero := rfl
@[simp] theorem RunState.applyReset_rsp (s : RunState α) (zero : α) : (s.applyReset zero).rsp = s.rsp := rfl
@[simp] theorem RunState.applyReset_bus (s : RunState α) (zero : α) : (s.applyReset zero).bus = s.bus := rfl
@[simp] theorem RunState.applyReset_pending (s : RunState α) (zero : α) : (s.applyReset zero).pending = s.pending := rfl
@[simp] theorem RunState.applyReset_freeCount (s : RunState α) (zero : α) : (s.applyReset zero).freeCount = s.freeCount := rfl

@[simp] theorem RunState.takeCmdError_voice (s : RunState α) (op : OpWord) : (s.takeCmdError op).voice = s.voice := rfl
@[simp] theorem RunState.takeCmdError_rsp (s : RunState α) (op : OpWord) : (s.takeCmdError op).rsp = some (.error (.cmdError op)) := rfl
@[simp] theorem RunState.takeCmdError_bus (s : RunState α) (op : OpWord) : (s.takeCmdError op).bus = s.bus := rfl
@[simp] theorem RunState.takeCmdError_pending (s : RunState α) (op : OpWord) : (s.takeCmdError op).pending = s.pending := rfl
@[simp] theorem RunState.takeCmdError_freeCount (s : RunState α) (op : OpWord) : (s.takeCmdError op).freeCount = s.freeCount := rfl

@[simp] theorem RunState.withScript_voice (s : RunState α) (N : Numerics α) (ls : List ScriptLine) :
    (s.withScript N ls).voice = s.voice := rfl
@[simp] theorem RunState.withScript_rsp (s : RunState α) (N : Numerics α) (ls : List ScriptLine) :
    (s.withScript N ls).rsp = s.rsp := rfl
@[simp] theorem RunState.withScript_bus (s : RunState α) (N : Numerics α) (ls : List ScriptLine) :
    (s.withScript N ls).bus = s.bus := rfl
@[simp] theorem RunState.withScript_pending (s : RunState α) (N : Numerics α) (ls : List ScriptLine) :
    (s.withScript N ls).pending = s.pending ++ (scriptEvents ls).map (HostEvent.map N.const) := rfl
@[simp] theorem RunState.withScript_freeCount (s : RunState α) (N : Numerics α) (ls : List ScriptLine) :
    (s.withScript N ls).freeCount = s.freeCount := rfl

@[simp] theorem RunState.atReset_voice (zero : α) : (RunState.atReset zero).voice = VoiceState.atReset zero := rfl
@[simp] theorem RunState.atReset_rsp (zero : α) : (RunState.atReset zero).rsp = none := rfl
@[simp] theorem RunState.atReset_bus (zero : α) : (RunState.atReset zero).bus = none := rfl
@[simp] theorem RunState.atReset_pending (zero : α) : (RunState.atReset zero).pending = [] := rfl
@[simp] theorem RunState.atReset_freeCount (zero : α) : (RunState.atReset zero).freeCount = 0 := rfl

@[simp] theorem VoiceState.atReset_tonePhase (z : α) : (VoiceState.atReset z).tonePhase = z := rfl
@[simp] theorem VoiceState.atReset_clickPhase (z : α) : (VoiceState.atReset z).clickPhase = z := rfl
@[simp] theorem VoiceState.atReset_currentTime (z : α) : (VoiceState.atReset z).currentTime = z := rfl
@[simp] theorem VoiceState.atReset_elapsedTime (z : α) : (VoiceState.atReset z).elapsedTime = z := rfl
@[simp] theorem VoiceState.atReset_releaseStartLevel (z : α) : (VoiceState.atReset z).releaseStartLevel = z := rfl
@[simp] theorem VoiceState.atReset_releaseStartTime (z : α) : (VoiceState.atReset z).releaseStartTime = z := rfl
@[simp] theorem VoiceState.atReset_isActive (z : α) : (VoiceState.atReset z).isActive = false := rfl
@[simp] theorem VoiceState.atReset_isPlaying (z : α) : (VoiceState.atReset z).isPlaying = false := rfl

/-! ### The machine and its block -/

@[simp] theorem State.onRun_toRunState (s : State) (f : RunState Number → RunState Number) :
    (s.onRun f).toRunState = f s.toRunState := rfl
@[simp] theorem State.onRun_cfg (s : State) (f : RunState Number → RunState Number) : (s.onRun f).cfg = s.cfg := rfl
@[simp] theorem State.block_num (s : State) : s.block.num = s.ops := rfl
@[simp] theorem State.block_params (s : State) : s.block.params = s.params := rfl
@[simp] theorem State.withScript_toRunState (s : State) (ls : List ScriptLine) :
    (s.withScript ls).toRunState = s.toRunState.withScript s.ops ls := rfl
@[simp] theorem State.withScript_cfg (s : State) (ls : List ScriptLine) : (s.withScript ls).cfg = s.cfg := rfl
@[simp] theorem State.resetWith_cfg (cfg : Configuration) : (State.resetWith cfg).cfg = cfg := rfl
@[simp] theorem State.resetWith_toRunState (cfg : Configuration) :
    (State.resetWith cfg).toRunState = RunState.atReset 0 := rfl

/-- What the machine answers is what its block answers, with the configuration kept. -/
theorem State.lift_next (s t : State) (o : Host.Outcome (RunState Number) Fault Refusal) :
    s.lift o = .next t ↔ o = .next t.toRunState ∧ t.cfg = s.cfg := by
  cases o with
  | next u =>
    obtain ⟨r, c⟩ := t
    simp only [State.lift, Host.Outcome.next.injEq, State.mk.injEq]
    exact ⟨fun h => ⟨h.1, h.2.symm⟩, fun h => ⟨h.1, h.2.symm⟩⟩
  | fault _ => simp [State.lift]
  | refused _ => simp [State.lift]

/-- An operation ends in its next state exactly when its values are finite. -/
theorem finish_next (N : Numerics α) (values : List α) (t u : RunState α) :
    finish N values t = .next u ↔ (∀ x ∈ values, N.finite x = true) ∧ u = t := by
  unfold finish
  split
  · rename_i h
    simp only [List.all_eq_true] at h
    simp only [Host.Outcome.next.injEq]
    exact ⟨fun e => ⟨h, e.symm⟩, fun e => e.2.symm⟩
  · rename_i h
    simp only [List.all_eq_true] at h
    simp [h]

/-- An operation is refused exactly when one of its values is not finite. -/
theorem finish_refused (N : Numerics α) (values : List α) (t : RunState α) (r : Refusal) :
    finish N values t = .refused r ↔ (∃ x ∈ values, N.finite x = false) ∧ r = .nonFinite := by
  unfold finish
  split
  · rename_i h
    simp only [List.all_eq_true] at h
    constructor
    · intro e; cases e
    · rintro ⟨⟨x, hx, hf⟩, -⟩
      rw [h x hx] at hf
      cases hf
  · rename_i h
    simp only [List.all_eq_true, not_forall, Bool.not_eq_true] at h
    obtain ⟨x, hx, hf⟩ := h
    simp only [Host.Outcome.refused.injEq]
    exact ⟨fun e => ⟨⟨x, hx, hf⟩, e.symm⟩, fun e => e.2.symm⟩

/-- With every value finite, as in exact arithmetic, an operation always ends in its next state. -/
theorem finish_of_finite (N : Numerics α) (h : ∀ x, N.finite x = true) (values : List α) (t : RunState α) :
    finish N values t = .next t := (finish_next N values t t).mpr ⟨fun x _ => h x, rfl⟩

end Sys2Proof.Machine
end

