-- ==== Sys2Proof/Laws/Step.lean ====
section
/-! SUPPORT. What a step can do, said once: the cases of `step`, and the part of State that no operation writes. -/

namespace Sys2Proof.Machine

/-- The machine does what its block does with each operation and its operand. -/
theorem exec_eq_lift (i : Instr) (s : State) : exec i s = s.lift (execOf s.block i (operand i) s.toRunState) := by
  cases i <;> rfl

/-- No operation of a block writes the host's part or the counter. -/
theorem execOf_outer {α : Type} [Zero α] [One α] [LT α] (B : Block α) (i : Instr) (arg : α) (s t : RunState α)
    (h : execOf B i arg s = .next t) : t.pending = s.pending ∧ t.freeCount = s.freeCount := by
  cases i
  case nextSample | noteOff | toneSine | clickSine | envValue | envAdvance | envRelease | swpValue | swpAdvance | swpTime =>
    obtain ⟨-, rfl⟩ := (finish_next _ _ _ _).mp h
    exact ⟨rfl, rfl⟩
  all_goals
    cases h
    exact ⟨rfl, rfl⟩

/-- No operation writes the configuration, the host's part or the counter. -/
theorem exec_outer (i : Instr) (s t : State) (h : exec i s = .next t) :
    t.cfg = s.cfg ∧ t.pending = s.pending ∧ t.freeCount = s.freeCount := by
  rw [exec_eq_lift] at h
  obtain ⟨h1, h2⟩ := (s.lift_next t _).mp h
  exact ⟨h2, execOf_outer _ _ _ _ _ h1⟩

/-- The cases of a step that answers a next state. -/
theorem step_cases (s t : State) (h : step s = .next t) :
    (s.pending = [] ∧ t = s.onRun (.accept [])) ∨
    ∃ e rest, s.pending = e :: rest ∧
      ((e = .idle ∧ t = s.onRun (.accept rest)) ∨
       (e = .rst ∧ t = (s.onRun (.accept rest)).onRun (.applyReset (s.ops.const 0))) ∨
       (∃ op i, e = .command op ∧ decodeCmd op = some i ∧ exec i (s.onRun (.accept rest)) = .next t) ∨
       (∃ op, e = .command op ∧ decodeCmd op = none ∧ t = (s.onRun (.accept rest)).onRun (.takeCmdError op)) ∨
       (∃ op arg i, e = .unitOp op arg ∧ decodeUnitOp ⟨op, arg⟩ = .ok i ∧
         exec i (s.onRun (.accept rest)) = .next t)) := by
  unfold step at h
  split at h
  · rename_i hp
    cases h
    exact .inl ⟨hp, rfl⟩
  · rename_i rest hp
    cases h
    exact .inr ⟨_, rest, hp, .inl ⟨rfl, rfl⟩⟩
  · rename_i rest hp
    cases h
    exact .inr ⟨_, rest, hp, .inr (.inl ⟨rfl, rfl⟩)⟩
  · rename_i op rest hp
    refine .inr ⟨_, rest, hp, .inr (.inr ?_)⟩
    split at h
    · rename_i i hi
      exact .inl ⟨op, i, rfl, hi, h⟩
    · rename_i hi
      cases h
      exact .inr (.inl ⟨op, rfl, hi, rfl⟩)
  · rename_i op arg rest hp
    refine .inr ⟨_, rest, hp, .inr (.inr (.inr (.inr ?_)))⟩
    split at h
    · rename_i i hi
      exact ⟨op, arg, i, rfl, hi, h⟩
    · cases h

/-- `decode_cmd` accepts the four commands and no other word (30_encoding.md R60). -/
theorem decodeCmd_cases (op : OpWord) (i : Instr) (h : decodeCmd op = some i) :
    (op = 0b000000#6 ∧ i = .nop) ∨ (op = 0b000001#6 ∧ i = .trigger) ∨
    (op = 0b000010#6 ∧ i = .nextSample) ∨ (op = 0b000011#6 ∧ i = .noteOff) := by
  unfold decodeCmd at h
  repeat' split at h
  all_goals first | (cases h; simp_all) | cases h

end Sys2Proof.Machine
end

