-- ==== Sys2Proof/Laws/Voice.lean ====
section
/-! SUPPORT. What each unit operation does to each state element, over any numerics record: its own elements take the
value its rule gives, every other keeps its own. -/

namespace Sys2Proof.Machine

variable {α : Type} (N : Numerics α) (P : Params α)

/-! ### TONE.SINE -/

@[simp] theorem toneSine_tonePhase (f : α) (v : VoiceState α) : ((toneSine N P f v).2).tonePhase = (oscSine N P v.tonePhase f).2 := rfl
@[simp] theorem toneSine_clickPhase (f : α) (v : VoiceState α) : ((toneSine N P f v).2).clickPhase = v.clickPhase := rfl
@[simp] theorem toneSine_currentTime (f : α) (v : VoiceState α) : ((toneSine N P f v).2).currentTime = v.currentTime := rfl
@[simp] theorem toneSine_elapsedTime (f : α) (v : VoiceState α) : ((toneSine N P f v).2).elapsedTime = v.elapsedTime := rfl
@[simp] theorem toneSine_releaseStartLevel (f : α) (v : VoiceState α) : ((toneSine N P f v).2).releaseStartLevel = v.releaseStartLevel := rfl
@[simp] theorem toneSine_releaseStartTime (f : α) (v : VoiceState α) : ((toneSine N P f v).2).releaseStartTime = v.releaseStartTime := rfl
@[simp] theorem toneSine_isActive (f : α) (v : VoiceState α) : ((toneSine N P f v).2).isActive = v.isActive := rfl
@[simp] theorem toneSine_isPlaying (f : α) (v : VoiceState α) : ((toneSine N P f v).2).isPlaying = v.isPlaying := rfl

/-! ### CLICK.SINE -/

@[simp] theorem clickSine_tonePhase (f : α) (v : VoiceState α) : ((clickSine N P f v).2).tonePhase = v.tonePhase := rfl
@[simp] theorem clickSine_clickPhase (f : α) (v : VoiceState α) : ((clickSine N P f v).2).clickPhase = (oscSine N P v.clickPhase f).2 := rfl
@[simp] theorem clickSine_currentTime (f : α) (v : VoiceState α) : ((clickSine N P f v).2).currentTime = v.currentTime := rfl
@[simp] theorem clickSine_elapsedTime (f : α) (v : VoiceState α) : ((clickSine N P f v).2).elapsedTime = v.elapsedTime := rfl
@[simp] theorem clickSine_releaseStartLevel (f : α) (v : VoiceState α) : ((clickSine N P f v).2).releaseStartLevel = v.releaseStartLevel := rfl
@[simp] theorem clickSine_releaseStartTime (f : α) (v : VoiceState α) : ((clickSine N P f v).2).releaseStartTime = v.releaseStartTime := rfl
@[simp] theorem clickSine_isActive (f : α) (v : VoiceState α) : ((clickSine N P f v).2).isActive = v.isActive := rfl
@[simp] theorem clickSine_isPlaying (f : α) (v : VoiceState α) : ((clickSine N P f v).2).isPlaying = v.isPlaying := rfl

/-! ### TONE.RESET -/

@[simp] theorem toneReset_tonePhase (v : VoiceState α) : (toneReset N v).tonePhase = N.const 0 := rfl
@[simp] theorem toneReset_clickPhase (v : VoiceState α) : (toneReset N v).clickPhase = v.clickPhase := rfl
@[simp] theorem toneReset_currentTime (v : VoiceState α) : (toneReset N v).currentTime = v.currentTime := rfl
@[simp] theorem toneReset_elapsedTime (v : VoiceState α) : (toneReset N v).elapsedTime = v.elapsedTime := rfl
@[simp] theorem toneReset_releaseStartLevel (v : VoiceState α) : (toneReset N v).releaseStartLevel = v.releaseStartLevel := rfl
@[simp] theorem toneReset_releaseStartTime (v : VoiceState α) : (toneReset N v).releaseStartTime = v.releaseStartTime := rfl
@[simp] theorem toneReset_isActive (v : VoiceState α) : (toneReset N v).isActive = v.isActive := rfl
@[simp] theorem toneReset_isPlaying (v : VoiceState α) : (toneReset N v).isPlaying = v.isPlaying := rfl

/-! ### CLICK.RESET -/

@[simp] theorem clickReset_tonePhase (v : VoiceState α) : (clickReset N v).tonePhase = v.tonePhase := rfl
@[simp] theorem clickReset_clickPhase (v : VoiceState α) : (clickReset N v).clickPhase = N.const 0 := rfl
@[simp] theorem clickReset_currentTime (v : VoiceState α) : (clickReset N v).currentTime = v.currentTime := rfl
@[simp] theorem clickReset_elapsedTime (v : VoiceState α) : (clickReset N v).elapsedTime = v.elapsedTime := rfl
@[simp] theorem clickReset_releaseStartLevel (v : VoiceState α) : (clickReset N v).releaseStartLevel = v.releaseStartLevel := rfl
@[simp] theorem clickReset_releaseStartTime (v : VoiceState α) : (clickReset N v).releaseStartTime = v.releaseStartTime := rfl
@[simp] theorem clickReset_isActive (v : VoiceState α) : (clickReset N v).isActive = v.isActive := rfl
@[simp] theorem clickReset_isPlaying (v : VoiceState α) : (clickReset N v).isPlaying = v.isPlaying := rfl

/-! ### ENV.ADVANCE -/

@[simp] theorem envAdvance_tonePhase (v : VoiceState α) : (envAdvance N P v).tonePhase = v.tonePhase := rfl
@[simp] theorem envAdvance_clickPhase (v : VoiceState α) : (envAdvance N P v).clickPhase = v.clickPhase := rfl
@[simp] theorem envAdvance_currentTime (v : VoiceState α) : (envAdvance N P v).currentTime = v.currentTime := rfl
@[simp] theorem envAdvance_elapsedTime (v : VoiceState α) : (envAdvance N P v).elapsedTime = N.add v.elapsedTime (samplePeriod N P) := rfl
@[simp] theorem envAdvance_releaseStartLevel (v : VoiceState α) : (envAdvance N P v).releaseStartLevel = v.releaseStartLevel := rfl
@[simp] theorem envAdvance_releaseStartTime (v : VoiceState α) : (envAdvance N P v).releaseStartTime = v.releaseStartTime := rfl
@[simp] theorem envAdvance_isActive (v : VoiceState α) : (envAdvance N P v).isActive = v.isActive := rfl
@[simp] theorem envAdvance_isPlaying (v : VoiceState α) : (envAdvance N P v).isPlaying = v.isPlaying := rfl

/-! ### ENV.TRIGGER -/

@[simp] theorem envTrigger_tonePhase (v : VoiceState α) : (envTrigger N v).tonePhase = v.tonePhase := rfl
@[simp] theorem envTrigger_clickPhase (v : VoiceState α) : (envTrigger N v).clickPhase = v.clickPhase := rfl
@[simp] theorem envTrigger_currentTime (v : VoiceState α) : (envTrigger N v).currentTime = v.currentTime := rfl
@[simp] theorem envTrigger_elapsedTime (v : VoiceState α) : (envTrigger N v).elapsedTime = N.const 0 := rfl
@[simp] theorem envTrigger_releaseStartLevel (v : VoiceState α) : (envTrigger N v).releaseStartLevel = v.releaseStartLevel := rfl
@[simp] theorem envTrigger_releaseStartTime (v : VoiceState α) : (envTrigger N v).releaseStartTime = v.releaseStartTime := rfl
@[simp] theorem envTrigger_isActive (v : VoiceState α) : (envTrigger N v).isActive = true := rfl
@[simp] theorem envTrigger_isPlaying (v : VoiceState α) : (envTrigger N v).isPlaying = v.isPlaying := rfl

/-! ### SWP.ADVANCE -/

@[simp] theorem swpAdvance_tonePhase (v : VoiceState α) : (swpAdvance N P v).tonePhase = v.tonePhase := rfl
@[simp] theorem swpAdvance_clickPhase (v : VoiceState α) : (swpAdvance N P v).clickPhase = v.clickPhase := rfl
@[simp] theorem swpAdvance_currentTime (v : VoiceState α) : (swpAdvance N P v).currentTime = N.add v.currentTime (samplePeriod N P) := rfl
@[simp] theorem swpAdvance_elapsedTime (v : VoiceState α) : (swpAdvance N P v).elapsedTime = v.elapsedTime := rfl
@[simp] theorem swpAdvance_releaseStartLevel (v : VoiceState α) : (swpAdvance N P v).releaseStartLevel = v.releaseStartLevel := rfl
@[simp] theorem swpAdvance_releaseStartTime (v : VoiceState α) : (swpAdvance N P v).releaseStartTime = v.releaseStartTime := rfl
@[simp] theorem swpAdvance_isActive (v : VoiceState α) : (swpAdvance N P v).isActive = v.isActive := rfl
@[simp] theorem swpAdvance_isPlaying (v : VoiceState α) : (swpAdvance N P v).isPlaying = v.isPlaying := rfl

/-! ### SWP.RESET -/

@[simp] theorem swpReset_tonePhase (v : VoiceState α) : (swpReset N v).tonePhase = v.tonePhase := rfl
@[simp] theorem swpReset_clickPhase (v : VoiceState α) : (swpReset N v).clickPhase = v.clickPhase := rfl
@[simp] theorem swpReset_currentTime (v : VoiceState α) : (swpReset N v).currentTime = N.const 0 := rfl
@[simp] theorem swpReset_elapsedTime (v : VoiceState α) : (swpReset N v).elapsedTime = v.elapsedTime := rfl
@[simp] theorem swpReset_releaseStartLevel (v : VoiceState α) : (swpReset N v).releaseStartLevel = v.releaseStartLevel := rfl
@[simp] theorem swpReset_releaseStartTime (v : VoiceState α) : (swpReset N v).releaseStartTime = v.releaseStartTime := rfl
@[simp] theorem swpReset_isActive (v : VoiceState α) : (swpReset N v).isActive = v.isActive := rfl
@[simp] theorem swpReset_isPlaying (v : VoiceState α) : (swpReset N v).isPlaying = v.isPlaying := rfl

/-! ### TRIGGER -/

@[simp] theorem voiceTrigger_tonePhase (v : VoiceState α) : (voiceTrigger N v).tonePhase = N.const 0 := rfl
@[simp] theorem voiceTrigger_clickPhase (v : VoiceState α) : (voiceTrigger N v).clickPhase = N.const 0 := rfl
@[simp] theorem voiceTrigger_currentTime (v : VoiceState α) : (voiceTrigger N v).currentTime = N.const 0 := rfl
@[simp] theorem voiceTrigger_elapsedTime (v : VoiceState α) : (voiceTrigger N v).elapsedTime = N.const 0 := rfl
@[simp] theorem voiceTrigger_releaseStartLevel (v : VoiceState α) : (voiceTrigger N v).releaseStartLevel = v.releaseStartLevel := rfl
@[simp] theorem voiceTrigger_releaseStartTime (v : VoiceState α) : (voiceTrigger N v).releaseStartTime = v.releaseStartTime := rfl
@[simp] theorem voiceTrigger_isActive (v : VoiceState α) : (voiceTrigger N v).isActive = true := rfl
@[simp] theorem voiceTrigger_isPlaying (v : VoiceState α) : (voiceTrigger N v).isPlaying = true := rfl

/-! ### ENV.RELEASE -/

theorem envRelease_of_active (v : VoiceState α) (h : v.isActive = true) :
    envRelease N P v =
      { v with releaseStartLevel := envValueActive N P v.elapsedTime, releaseStartTime := v.elapsedTime, isActive := false } := by
  simp [envRelease, envValue, h]

theorem envRelease_of_inactive (v : VoiceState α) (h : v.isActive = false) : envRelease N P v = v := by
  simp [envRelease, h]

@[simp] theorem envRelease_tonePhase (v : VoiceState α) : (envRelease N P v).tonePhase = v.tonePhase := by
  unfold envRelease; split <;> rfl

@[simp] theorem envRelease_clickPhase (v : VoiceState α) : (envRelease N P v).clickPhase = v.clickPhase := by
  unfold envRelease; split <;> rfl

@[simp] theorem envRelease_currentTime (v : VoiceState α) : (envRelease N P v).currentTime = v.currentTime := by
  unfold envRelease; split <;> rfl

@[simp] theorem envRelease_elapsedTime (v : VoiceState α) : (envRelease N P v).elapsedTime = v.elapsedTime := by
  unfold envRelease; split <;> rfl

@[simp] theorem envRelease_isPlaying (v : VoiceState α) : (envRelease N P v).isPlaying = v.isPlaying := by
  unfold envRelease; split <;> rfl

@[simp] theorem envRelease_isActive (v : VoiceState α) : (envRelease N P v).isActive = false := by
  unfold envRelease; split <;> simp_all

/-! ### Step 6 of NEXT_SAMPLE -/

@[simp] theorem stopIfFinished_tonePhase (v : VoiceState α) : (stopIfFinished N P v).tonePhase = v.tonePhase := by
  unfold stopIfFinished; split <;> rfl

@[simp] theorem stopIfFinished_clickPhase (v : VoiceState α) : (stopIfFinished N P v).clickPhase = v.clickPhase := by
  unfold stopIfFinished; split <;> rfl

@[simp] theorem stopIfFinished_currentTime (v : VoiceState α) : (stopIfFinished N P v).currentTime = v.currentTime := by
  unfold stopIfFinished; split <;> rfl

@[simp] theorem stopIfFinished_elapsedTime (v : VoiceState α) : (stopIfFinished N P v).elapsedTime = v.elapsedTime := by
  unfold stopIfFinished; split <;> rfl

@[simp] theorem stopIfFinished_releaseStartLevel (v : VoiceState α) : (stopIfFinished N P v).releaseStartLevel = v.releaseStartLevel := by
  unfold stopIfFinished; split <;> rfl

@[simp] theorem stopIfFinished_releaseStartTime (v : VoiceState α) : (stopIfFinished N P v).releaseStartTime = v.releaseStartTime := by
  unfold stopIfFinished; split <;> rfl

@[simp] theorem stopIfFinished_isActive (v : VoiceState α) : (stopIfFinished N P v).isActive = v.isActive := by
  unfold stopIfFinished; split <;> rfl

@[simp] theorem stopIfFinished_isPlaying (v : VoiceState α) :
    (stopIfFinished N P v).isPlaying = (v.isPlaying && !envIsFinished N P v) := by
  unfold stopIfFinished; split <;> simp_all

/-! ### NEXT_SAMPLE -/

theorem nextSample_of_playing (v : VoiceState α) (h : v.isPlaying = true) : nextSample N P v = playingSample N P v := by
  simp [nextSample, h]

theorem nextSample_of_stopped (v : VoiceState α) (h : v.isPlaying = false) : nextSample N P v = (N.const 0, v) := by
  simp [nextSample, h]

@[simp] theorem playingSample_tonePhase (v : VoiceState α) :
    (playingSample N P v).2.tonePhase = (oscSine N P v.tonePhase (sweepValue N P v.currentTime)).2 := by
  simp [playingSample]

@[simp] theorem playingSample_clickPhase (v : VoiceState α) :
    (playingSample N P v).2.clickPhase =
      (oscSine N P v.clickPhase (N.mul P.kClickRatio (sweepValue N P v.currentTime))).2 := by
  simp [playingSample]

@[simp] theorem playingSample_currentTime (v : VoiceState α) :
    (playingSample N P v).2.currentTime = N.add v.currentTime (samplePeriod N P) := by
  simp [playingSample]

@[simp] theorem playingSample_elapsedTime (v : VoiceState α) :
    (playingSample N P v).2.elapsedTime = N.add v.elapsedTime (samplePeriod N P) := by
  simp [playingSample]

@[simp] theorem playingSample_releaseStartLevel (v : VoiceState α) :
    (playingSample N P v).2.releaseStartLevel = v.releaseStartLevel := by
  simp [playingSample]

@[simp] theorem playingSample_releaseStartTime (v : VoiceState α) :
    (playingSample N P v).2.releaseStartTime = v.releaseStartTime := by
  simp [playingSample]

@[simp] theorem playingSample_isActive (v : VoiceState α) : (playingSample N P v).2.isActive = v.isActive := by
  simp [playingSample]

/-- Step 6 decides on the advanced clock: the flag survives a pull exactly when the advanced envelope has not finished. -/
theorem playingSample_isPlaying (v : VoiceState α) :
    (playingSample N P v).2.isPlaying = (v.isPlaying && !envIsFinished N P (envAdvance N P v)) := by
  simp [playingSample, envIsFinished]

/-- The sample, in the evaluation order of 43_voice_mixer.md R144. -/
theorem playingSample_out (v : VoiceState α) :
    (playingSample N P v).1 =
      mix N P (N.sin (N.mul N.twoPi v.tonePhase))
        (clickLayer N P (N.sin (N.mul N.twoPi v.clickPhase)) v.currentTime) (envValue N P v) := rfl

end Sys2Proof.Machine
end

