-- ==== Sys2Proof/Tests/Slice0.lean ====
section
/-! SUPPORT. Tests. Expected values come from the spec: its encodings (30_encoding.md R52), its worked examples and its
vectors (95_test_vectors.md), named in each comment. The witnesses at the end show states that meet the hypotheses of
the statements. -/

namespace Sys2Proof.Tests

set_option Elab.async false

open Sys2Proof.Machine

/-! ### Small states -/

/-- A configuration in exact arithmetic. -/
def exactly (P : Params ℚ) (h : (P.map (numerics .exact).const).wf (numerics .exact) = true) : Configuration :=
  ⟨.exact, P, h⟩

/-- The spec's defaults at 48000 Hz (10_state.md R30), in exact arithmetic. -/
def kick : Configuration := exactly (Config.defaults 48000) (by decide +kernel)

/-- The configuration of 95_test_vectors.md P4: a sample rate of 4. -/
def slow : Configuration := exactly (Config.defaults 4) (by decide +kernel)

/-- The configuration of 95_test_vectors.md P2. -/
def p2 : Configuration :=
  exactly ⟨8, 1, 1, 1 / 4, 1 / 4, 1 / 2, 1 / 2, 1 / 4, 3 / 10, 5, 50, 8, 1 / 2⟩ (by decide +kernel)

/-- A machine under a configuration, with a voice and the host's events. -/
def machine (cfg : Configuration) (v : VoiceState Number) (es : List (HostEvent Number)) : State :=
  { State.resetWith cfg with voice := v, pending := es }

/-- A voice with its phases. -/
def phases (tp cp : Number) : VoiceState Number := ⟨tp, cp, 0, 0, 0, 0, false, false⟩

/-- A voice with its envelope, as the tuples of 95_test_vectors.md section 2.3. -/
def envelope (et rsl rst : Number) (act : Bool) : VoiceState Number := ⟨0, 0, 0, et, rsl, rst, act, true⟩

/-- A voice with its sweep time. -/
def sweepAt (c : Number) : VoiceState Number := ⟨0, 0, c, 0, 0, 0, false, false⟩

/-- The voice after an operation. -/
def voiceAfter (o : Host.Outcome State Fault Refusal) : Option (VoiceState Number) :=
  match o with
  | .next t => some t.voice
  | .fault _ => none
  | .refused _ => none

/-- What the unit bus returned. -/
def busAfter (o : Host.Outcome State Fault Refusal) : Option (UnitResult Number) :=
  match o with
  | .next t => t.bus
  | .fault _ => none
  | .refused _ => none

/-- The response. -/
def rspAfter (o : Host.Outcome State Fault Refusal) : Option (Response Number) :=
  match o with
  | .next t => t.rsp
  | .fault _ => none
  | .refused _ => none

/-! ### Well-formedness: each check refuses an ill-formed term -/

/-- Exact arithmetic, but that numbers above 1000 are infinite and a number of 2000 or more is a NaN. -/
def capped : Numerics ℚ :=
  { numerics .exact with finite := fun x => decide (x ≤ 1000), nan := fun x => decide (2000 ≤ x), twoPi := 6 }
/-- It is a NUM (00_scope.md R11): from every infinite `x > 0` too the quotient `0 / x` is 0. -/
theorem capped_lawful : Lawful capped :=
  { numerics_lawful .exact with
    finite_zero := by decide +kernel
    finite_one := by decide +kernel
    zero_div := fun x _ h => (numerics_lawful .exact).zero_div x rfl h
    mul_zero := fun x _ => (numerics_lawful .exact).mul_zero x rfl
    sub_self := fun x _ => (numerics_lawful .exact).sub_self x rfl
    lt_iff := fun x y _ _ => (numerics_lawful .exact).lt_iff x y rfl rfl
    ge_not_lt := fun x y _ _ => (numerics_lawful .exact).ge_not_lt x y rfl rfl
    nan_of_finite := fun x h => by
      have h : x ≤ 1000 := of_decide_eq_true h
      exact decide_eq_false (by linarith) }
/-- 00_scope.md R11, `N_div0`: 0 divided by an infinite `x > 0`. -/
theorem test_zero_over_infinity :
    capped.finite 1001 = false ∧ capped.lt 0 1001 = true ∧ capped.div 0 1001 = 0 := by decide +kernel
/-- 00_scope.md R11, `N_exp0`: a record with `exp 0 = 3` is no NUM, so no block has it. -/
theorem test_lawful_refuses_exp_zero : ¬ Lawful { capped with exp := fun _ => 3 } :=
  fun L => absurd L.exp_zero (by decide +kernel)
/-- 00_scope.md R9: `SAMPLE_RATE = 0` is no configuration. -/
theorem test_params_wf_refuses_zero_rate : (Config.defaults 0).wf capped = false := by decide +kernel
/-- 00_scope.md R9: nor is a negative rate. -/
theorem test_params_wf_refuses_negative_rate : (Config.defaults (-1)).wf capped = false := by decide +kernel
/-- 00_scope.md R14, 92_eei_decisions.md D3: nor is one with an infinite value, a constant of log 16 among them. -/
theorem test_params_wf_refuses_infinite_value :
    (Config.defaults 1001).wf capped = false ∧ ({ Config.defaults 8 with kOutAtten := 1001 }).wf capped = false ∧
    ({ Config.defaults 8 with kCurve := -1001 }).wf capped = false ∧
    ({ Config.defaults 8 with kClickDecay := -1001 }).wf capped = false ∧
    (Config.defaults 8).wf { capped with twoPi := 1001 } = false ∧ (Config.defaults 8).wf capped = true := by
  decide +kernel
/-- 30_encoding.md R60: a unit operation is no command. -/
theorem test_wfOn_refuses_unit_operation_on_command_port : Instr.toneReset.wfOn .command = false := by decide
/-- 30_encoding.md R59: a command does not travel on the unit bus. -/
theorem test_wfOn_refuses_command_on_unit_bus : Instr.trigger.wfOn .unitBus = false := by decide

/-! ### Decoding: every word written out from 30_encoding.md R52 -/

theorem test_decode_nop : decode ⟨0b000000#6, 0⟩ = .ok .nop := by decide
theorem test_decode_trigger : decode ⟨0b000001#6, 0⟩ = .ok .trigger := by decide
theorem test_decode_next_sample : decode ⟨0b000010#6, 0⟩ = .ok .nextSample := by decide
theorem test_decode_note_off : decode ⟨0b000011#6, 0⟩ = .ok .noteOff := by decide
theorem test_decode_tone_sine : decode ⟨0b001000#6, 150⟩ = .ok (.toneSine 150) := by decide
theorem test_decode_tone_reset : decode ⟨0b001001#6, 0⟩ = .ok .toneReset := by decide
theorem test_decode_click_sine : decode ⟨0b010000#6, 1200⟩ = .ok (.clickSine 1200) := by decide
theorem test_decode_click_reset : decode ⟨0b010001#6, 0⟩ = .ok .clickReset := by decide
theorem test_decode_env_value : decode ⟨0b011000#6, 0⟩ = .ok .envValue := by decide
theorem test_decode_env_advance : decode ⟨0b011001#6, 0⟩ = .ok .envAdvance := by decide
theorem test_decode_env_trigger : decode ⟨0b011010#6, 0⟩ = .ok .envTrigger := by decide
theorem test_decode_env_release : decode ⟨0b011011#6, 0⟩ = .ok .envRelease := by decide
theorem test_decode_env_finished : decode ⟨0b011100#6, 0⟩ = .ok .envFinished := by decide
theorem test_decode_swp_value : decode ⟨0b100000#6, 0⟩ = .ok .swpValue := by decide
theorem test_decode_swp_advance : decode ⟨0b100001#6, 0⟩ = .ok .swpAdvance := by decide
theorem test_decode_swp_reset : decode ⟨0b100010#6, 0⟩ = .ok .swpReset := by decide
theorem test_decode_swp_time : decode ⟨0b100011#6, 0⟩ = .ok .swpTime := by decide
/-- V-DEC-10 and V-DEC-12: a reserved unit, and a reserved `uop` of ADSR. -/
theorem test_decode_reserved :
    decode ⟨0b101000#6, 0⟩ = .error .reservedUnit ∧ decode ⟨0b011101#6, 0⟩ = .error .reservedUop := by decide
/-- The count check of 95_test_vectors.md section 2.1: 4 commands and 60 illegal words. -/
theorem test_command_words_are_four :
    ((List.range 64).filter fun w => (decodeCmd (BitVec.ofNat 6 w)).isSome) = [0, 1, 2, 3] := by decide
/-- The same count: 17 words name an operation, 47 are reserved. -/
theorem test_defined_words_are_seventeen :
    ((List.range 64).filter fun w => (decodeTableWord 8 w).isSome) =
      [0, 1, 2, 3, 8, 9, 16, 17, 24, 25, 26, 27, 28, 32, 33, 34, 35] := by decide

/-! ### The oscillators (95_test_vectors.md section 2.2 and P4) -/

/-- V-OSC-3: a phase sum of exactly 1 wraps to 0. -/
theorem test_tone_sine_wraps_at_one :
    (voiceAfter (exec (.toneSine 12000) (machine kick (phases (3 / 4) 0) []))) = some (phases 0 0) := by decide +kernel
/-- P4 step 2: the under-wrap leaves 1.5. -/
theorem test_tone_sine_under_wraps :
    (voiceAfter (exec (.toneSine 10) (machine slow (phases 0 0) []))) = some (phases (3 / 2) 0) := by decide +kernel
/-- P4 step 5: a negative frequency leaves the phase below 0. -/
theorem test_click_sine_goes_negative :
    (voiceAfter (exec (.clickSine (-3)) (machine slow (phases 0 (1 / 2)) []))) = some (phases 0 (-1 / 4)) := by
  decide +kernel
/-- V-OSC-1: the sample is that of the phase before the advance. -/
theorem test_click_sine_reads_first :
    busAfter (exec (.clickSine 440) (machine kick (phases (1 / 3) 0) [])) = some (.num 0) := by
  show some (UnitResult.num (numSin .exact (Config.twoPi .exact * 0))) = some (.num 0)
  simp [numSin]
/-- V-OSC-11. -/
theorem test_tone_reset :
    voiceAfter (exec .toneReset (machine kick (phases (73 / 100) (1 / 4)) [])) = some (phases 0 (1 / 4)) := by
  decide +kernel
/-- V-OSC-12. -/
theorem test_click_reset :
    voiceAfter (exec .clickReset (machine kick (phases (1 / 4) (-1 / 4)) [])) = some (phases (1 / 4) 0) := by
  decide +kernel

/-! ### The envelope (95_test_vectors.md section 2.3) -/

/-- V-ENV-7: Decay. -/
theorem test_env_value_decay :
    busAfter (exec .envValue (machine kick (envelope (2 / 10) 0 0 true) [])) = some (.num (403 / 1000)) := by
  decide +kernel
/-- V-ENV-13: Release. -/
theorem test_env_value_release :
    busAfter (exec .envValue (machine kick (envelope (225 / 1000) (403 / 1000) (2 / 10) false) [])) =
      some (.num (30225 / 100000)) := by decide +kernel
/-- 41_adsr_envelope.md R95, worked example: at 8 Hz, 0.25 becomes 0.375. -/
theorem test_env_advance :
    voiceAfter (exec .envAdvance (machine p2 (envelope (1 / 4) 0 0 true) [])) = some (envelope (3 / 8) 0 0 true) := by
  decide +kernel
/-- V-ENV-18: the captured level and time are kept. -/
theorem test_env_trigger :
    voiceAfter (exec .envTrigger (machine kick (envelope (1 / 4) (403 / 1000) (2 / 10) false) [])) =
      some (envelope 0 (403 / 1000) (2 / 10) true) := by decide +kernel
/-- V-ENV-20: a release from Attack captures the attack level. -/
theorem test_env_release :
    voiceAfter (exec .envRelease (machine kick (envelope (5 / 10000) 0 0 true) [])) =
      some (envelope (5 / 10000) (1 / 2) (5 / 10000) false) := by decide +kernel
/-- V-ENV-17: a second release changes nothing. -/
theorem test_env_release_again :
    voiceAfter (exec .envRelease (machine kick (envelope (1 / 4) (403 / 1000) (2 / 10) false) [])) =
      some (envelope (1 / 4) (403 / 1000) (2 / 10) false) := by decide +kernel
/-- V-ENV-14 and V-ENV-15a: not finished at 0.25, finished at 0.3 exactly. -/
theorem test_env_finished :
    busAfter (exec .envFinished (machine kick (envelope (1 / 4) 0 (2 / 10) false) [])) = some (.flag false) ∧
    busAfter (exec .envFinished (machine kick (envelope (3 / 10) 0 (2 / 10) false) [])) = some (.flag true) := by
  decide +kernel
/-- V-ENV-21: never finished while active. -/
theorem test_env_finished_active :
    busAfter (exec .envFinished (machine kick (envelope (1 / 2) 0 0 true) [])) = some (.flag false) := by decide +kernel

/-! ### The sweep (95_test_vectors.md section 2.4) -/

/-- V-SWP-9: at the duration, the end value. -/
theorem test_swp_value_end : busAfter (exec .swpValue (machine kick (sweepAt (1 / 10)) [])) = some (.num 50) := by
  decide +kernel
/-- V-SWP-1: at 0, the start value. -/
theorem test_swp_value_start : busAfter (exec .swpValue (machine kick (sweepAt 0) [])) = some (.num 150) := by
  decide +kernel
/-- V-SWP-20: it keeps counting past the duration. -/
theorem test_swp_advance :
    voiceAfter (exec .swpAdvance (machine kick (sweepAt 5) [])) = some (sweepAt (5 + 1 / 48000)) := by decide +kernel
/-- V-SWP-17. -/
theorem test_swp_reset : voiceAfter (exec .swpReset (machine kick (sweepAt (5 / 100)) [])) = some (sweepAt 0) := by
  decide +kernel
/-- V-SWP-18. -/
theorem test_swp_time : busAfter (exec .swpTime (machine kick (sweepAt (5 / 100)) [])) = some (.num (5 / 100)) := by
  decide +kernel

/-! ### The commands (95_test_vectors.md section 2.5, P2, P3) -/

/-- V-MIX-9: TRIGGER from an arbitrary state. -/
theorem test_trigger :
    voiceAfter (exec .trigger (machine kick ⟨31 / 100, 48 / 100, 5 / 100, 5 / 100, 403 / 1000, 2 / 10, false, false⟩ [])) =
      some ⟨0, 0, 0, 0, 403 / 1000, 2 / 10, true, true⟩ := by decide +kernel
/-- V-DEC-1: NOP answers 0. -/
theorem test_nop : rspAfter (exec .nop (machine kick (sweepAt 5) [])) = some (.data 0) := by decide +kernel
/-- P2 sample 9: the pull that stops the voice; the clocks advance, the tone moves by 1/8, the click wraps at 1. -/
theorem test_next_sample_stops :
    voiceAfter (exec .nextSample (machine p2 ⟨1 / 8, 0, 9 / 8, 9 / 8, 1 / 2, 1, false, true⟩ [])) =
      some ⟨1 / 4, 0, 5 / 4, 5 / 4, 1 / 2, 1, false, false⟩ := by decide +kernel
/-- P2 sample 10: silence, and nothing changes. -/
theorem test_next_sample_stopped :
    exec .nextSample (machine p2 ⟨1 / 4, 0, 5 / 4, 5 / 4, 1 / 2, 1, false, false⟩ []) =
      .next { machine p2 ⟨1 / 4, 0, 5 / 4, 5 / 4, 1 / 2, 1, false, false⟩ [] with rsp := some (.data 0) } := rfl
/-- P2: NOTE_OFF after sample 7. -/
theorem test_note_off :
    voiceAfter (exec .noteOff (machine p2 ⟨0, 0, 1, 1, 0, 0, true, true⟩ [])) =
      some ⟨0, 0, 1, 1, 1 / 2, 1, false, true⟩ := by decide +kernel
/-- V-MIX-10: NOTE_OFF when not playing. -/
theorem test_note_off_stopped :
    voiceAfter (exec .noteOff (machine p2 ⟨1 / 4, 0, 5 / 4, 5 / 4, 1 / 2, 1, false, false⟩ [])) =
      some ⟨1 / 4, 0, 5 / 4, 5 / 4, 1 / 2, 1, false, false⟩ := by decide +kernel

/-! ### Steps -/

/-- V-DEC-7: TONE.SINE's word on the command port is answered by CmdError. -/
theorem test_step_illegal_word :
    rspAfter (step (machine kick (sweepAt 0) [.command 0x08#6])) = some (.error (.cmdError 0x08#6)) := by decide +kernel
/-- 30_encoding.md R61: a reserved word on the unit bus is refused. -/
theorem test_step_refuses_reserved_unit_word :
    step (machine kick (sweepAt 0) [.unitOp 0x1D#6 0]) = .refused (.reservedUnitWord 0x1D#6) := rfl
/-- 70_reset_and_hazards.md R190: `rst` from a sounding voice. -/
theorem test_step_rst :
    voiceAfter (step (machine p2 ⟨0, 0, 1, 1, 1 / 2, 1, true, true⟩ [.rst])) = some (VoiceState.atReset 0) := by
  decide +kernel
/-- A table word of the unit bus is the first thing the machine runs after reset (log 6, log 11). -/
theorem test_fetch_word_runs : busAfter (step (State.reset.withFetchWord 8 0x1C)) = some (.flag false) := by
  decide +kernel
/-- The number format's named values (00_scope.md R11) in a format of which nothing else is known. -/
theorem test_implementation_format_named_values :
    (numerics (.implementation 3)).exp 0 = 1 ∧ (numerics (.implementation 3)).sin 0 = 0 ∧
    (numerics (.implementation 3)).sub 1 1 = 0 ∧ (numerics (.implementation 3)).div 0 1 = 0 ∧
    (numerics (.implementation 3)).lt 0 1 = true ∧ (numerics (.implementation 3)).ge 0 1 = false := by decide +kernel
/-- The four literals at the source's values (10_state.md R32), beside the defaults of R30. -/
theorem test_defaults :
    Config.defaults 48000 = ⟨48000, 150, 50, 1 / 10, 1 / 1000, 3 / 10, 1 / 10, 1 / 10, 3 / 10, 5, 50, 8, 1 / 2⟩ := rfl
/-- A block whose literals an audit changed (92_eei_decisions.md D22): the click runs at 2 times the tone's frequency. -/
theorem test_click_ratio_is_a_parameter :
    voiceAfter (exec .nextSample
        (machine (exactly { p2.values with kClickRatio := 2 } (by decide +kernel)) ⟨0, 0, 1, 0, 0, 0, true, true⟩ [])) =
      some ⟨1 / 8, 1 / 4, 9 / 8, 1 / 8, 0, 0, true, true⟩ := by decide +kernel

/-! ### Values that are not finite (00_scope.md R14) -/

/-- A block whose NUM is `capped`. -/
def cappedBlock (P : Params ℚ) (h : P.wf capped = true) : Block ℚ := ⟨capped, capped_lawful, P, h⟩

/-- Why a step of a block was refused. -/
def refusalAfter (o : Host.Outcome (RunState ℚ) Fault Refusal) : Option Refusal :=
  match o with
  | .next _ => none
  | .fault _ => none
  | .refused r => some r

/-- An infinite operand of TONE.SINE is refused. -/
theorem test_infinite_operand_is_refused :
    refusalAfter (stepOf (cappedBlock (Config.defaults 8) (by decide +kernel))
      { RunState.atReset 0 with pending := [.unitOp 0x08#6 1001] }) = some .nonFinite := by decide +kernel
/-- An infinite frequency on the unit bus, `K_CLICK_RATIO * f`, ends the pull. -/
theorem test_infinite_bus_value_is_refused :
    refusalAfter (stepOf (cappedBlock { Config.defaults 8 with endFrequency := 200 } (by decide +kernel))
      { RunState.atReset 0 with voice := ⟨0, 0, 1, 1, 0, 0, true, true⟩, pending := [pull] }) = some .nonFinite := by
  decide +kernel
/-- A clock that overflows is refused, before it is written to its state element. -/
theorem test_infinite_state_value_is_refused :
    refusalAfter (stepOf (cappedBlock (Config.defaults 8) (by decide +kernel))
      { RunState.atReset 0 with voice := sweepAt 1000, pending := [.unitOp 0x21#6 0] }) = some .nonFinite := by
  decide +kernel

/-! ### Scripts (30_encoding.md R63, R64) -/

/-- The head of program P3, with a comment. -/
theorem test_script_command :
    parseScript .command "TRIGGER            # 0x01\nNEXT_SAMPLE *3\nNOP\nRETRIGGER" =
      some [.operation .trigger, .nextSampleTimes 3, .operation .nop, .retrigger] := by decide +kernel
/-- The operand forms of 30_encoding.md R63. -/
theorem test_script_trace :
    parseScript .unitBus "TONE.SINE 150\nCLICK.SINE -3\nSWP.TIME" =
      some [.operation (.toneSine 150), .operation (.clickSine (-3)), .operation .swpTime] := by decide +kernel
/-- Log 17: a decimal operand reaches the block as `const` of its format gives it. -/
theorem test_script_operand_is_embedded :
    ((RunState.atReset 0).withScript { capped with const := fun c => if c = 1 / 10 then 13 / 128 else c }
      [.operation (.toneSine (1 / 10))]).pending = [.unitOp 0x08#6 (13 / 128)] := by decide +kernel
/-- A unit operation is no line of a host program. -/
theorem test_script_refuses_unit_operation : parseScript .command "TONE.SINE 150" = none := by decide +kernel

/-! ### Witnesses: states that meet the hypotheses of the statements -/

/-- A voice just triggered. -/
def fresh : VoiceState Number := ⟨0, 0, 0, 0, 0, 0, true, true⟩

/-- A voice just released: 95_test_vectors.md P2. -/
def released : VoiceState Number := ⟨0, 0, 1, 1, 1 / 2, 1, false, true⟩

/-- PhaseStaysInUnitIntervalForUnitIncrements, at an increment of exactly 1 and of 0. -/
theorem witness_phase_range :
    ∃ s : State, s.cfg.num = .exact ∧ (48000 : Number) / s.params.sampleRate = 1 ∧
      (0 : Number) / s.params.sampleRate = 0 ∧ s.voice.tonePhase = 0 ∧ 0 ≤ s.voice.clickPhase ∧
      s.voice.clickPhase < 1 :=
  ⟨machine kick (phases 0 (99 / 100)) [], by decide +kernel⟩

/-- PhaseWrapIsOneSubtraction, one state per clause: a sum below 0, of 2, of 1, and a zero frequency. -/
theorem witness_phase_wrap :
    (1 / 2 + -3 / slow.params.sampleRate < 0) ∧ (0 + 8 / slow.params.sampleRate = 2) ∧
    (0 + 4 / slow.params.sampleRate = 1) ∧ (machine slow (phases (1 / 2) 0) []).voice.tonePhase < 1 := by
  decide +kernel

/-- EnvTriggerRestartsTheEnvelope's clauses: a positive attack; no attack; neither attack nor decay. -/
theorem witness_env_trigger :
    0 < kick.params.attackTime ∧
    (∃ c : Configuration, c.num = .exact ∧ c.params.attackTime = 0 ∧ 0 < c.params.decayTime) ∧
    (∃ c : Configuration, c.num = .exact ∧ c.params.attackTime = 0 ∧ c.params.decayTime = 0) :=
  ⟨by decide +kernel,
    ⟨exactly { Config.defaults 8 with attackTime := 0 } (by decide +kernel), by decide +kernel⟩,
    ⟨exactly { Config.defaults 8 with attackTime := 0, decayTime := 0 } (by decide +kernel), by decide +kernel⟩⟩

/-- EnvReleaseCapturesOnce, NoteOffReleasesTheEnvelope and EnvFinishedIsTheIdleStage: an active envelope, an inactive
one, a finished one, and no release time. -/
theorem witness_envelope_flags :
    (machine kick fresh []).voice.isActive = true ∧ (machine p2 released []).voice.isActive = false ∧
    envIsFinished (numerics .exact) p2.params ⟨0, 0, 2, 2, 1 / 2, 1, false, true⟩ = true ∧
    ({ p2.params with releaseTime := 0 } : Params Number).releaseTime ≤ 0 := by decide +kernel

/-- NoDivisionByANonPositiveNumberIsReached: another quotient for a divisor that is not positive. -/
theorem witness_no_division :
    ∃ d : Number → Number → Number, (∀ a b, 0 < b → d a b = a / b) ∧ d 1 0 = 7 ∧
      0 < p2.params.sampleRate ∧ 0 ≤ released.elapsedTime ∧ 0 ≤ released.currentTime ∧
      (released.isActive = false → released.releaseStartTime ≤ released.elapsedTime) :=
  ⟨fun a b => if 0 < b then a / b else 7, fun _ _ h => if_pos h, by decide +kernel⟩

/-- EnvelopeIsContinuousAtItsBoundaries, SweepIsMonotoneAndBetweenItsEnds, RealSampleMagnitudeIsBounded and
RealVoicePhasesStayInUnitInterval: parameters and a voice over the reals, with the frequencies at the bound. -/
theorem witness_real :
    ∃ (P : Params ℝ) (v : VoiceState ℝ), 0 < P.attackTime ∧ 0 < P.decayTime ∧ P.startFrequency ≤ P.endFrequency ∧
      0 ≤ P.kCurve ∧ 0 ≤ P.kClickDecay ∧ 1 ≤ P.kClickRatio ∧
      0 ≤ v.currentTime ∧ envValue realNumerics P v = 0 ∧ 0 < P.sampleRate ∧ 0 ≤ P.startFrequency ∧
      P.kClickRatio * P.startFrequency ≤ P.sampleRate ∧ 0 ≤ P.endFrequency ∧
      P.kClickRatio * P.endFrequency = P.sampleRate ∧ v.tonePhase ∈ Set.Ico 0 1 ∧ v.clickPhase ∈ Set.Ico 0 1 :=
  ⟨⟨8, 0, 1, 1, 1, 1, 1, 1, 1, 5, 50, 8, 1 / 2⟩, ⟨0, 0, 0, 0, 0, 0, true, true⟩, by
    simp [envValue, envValueActive, realNumerics]⟩

/-- RealSampleMagnitudeIsBounded, ClocksCountThePulls and ReleasedVoiceStopsOnTime over the reals: parameters and a
port-driven block, just triggered and just released. -/
theorem witness_real_block :
    ∃ (P : Params ℝ) (s r : RunState ℝ), 0 < P.sampleRate ∧ SensibleEnvelope P ∧ VoiceBounds s.voice ∧ s.portOnly ∧
      s.pending = trig :: (List.replicate 1 pull ++ []) ∧
      r.voice.isPlaying = true ∧ r.voice.isActive = false ∧ r.voice.releaseStartTime = r.voice.elapsedTime ∧
      r.pending = List.replicate 2 pull ++ [] :=
  ⟨⟨8, 0, 1, 1, 1, 1, 1, 1, 1, 5, 50, 8, 1 / 2⟩,
    { RunState.atReset 0 with pending := [trig, pull] },
    { RunState.atReset 0 with voice := ⟨0, 0, 1, 1, 1, 1, false, true⟩, pending := [pull, pull] },
    by norm_num, ⟨by norm_num, by norm_num, by norm_num, by norm_num, by norm_num⟩,
    ⟨le_refl _, le_refl _, le_refl _, zero_le_one, fun _ => le_refl _⟩,
    by simp [RunState.portOnly, trig, pull, HostEvent.onPort], rfl, rfl, rfl, rfl, rfl⟩

/-- SweepIsMonotoneAndBetweenItsEnds, the falling sweep, with a time from its range. -/
theorem witness_real_falling_sweep :
    ∃ P : Params ℝ, 0 ≤ P.kCurve ∧ P.endFrequency ≤ P.startFrequency ∧ (0 : ℝ) ∈ Set.Ici (0 : ℝ) :=
  ⟨⟨8, 150, 50, 1, 1, 1, 1, 1, 1, 5, 50, 8, 1 / 2⟩, by norm_num⟩

/-- ReleaseStartsFromTheCapturedLevel. -/
theorem witness_release :
    (machine p2 fresh []).cfg.num = .exact ∧ (machine p2 fresh []).voice.isActive = true ∧
    0 < (machine p2 fresh []).params.releaseTime := by decide +kernel

/-- SweepEndPointsAreExact and SweepClockOperations: a positive duration, no duration, and the duration reached exactly. -/
theorem witness_sweep_ends :
    0 < kick.params.pitchDecayTime ∧ ({ Config.defaults 8 with pitchDecayTime := 0 } : Params Number).pitchDecayTime ≤ 0 ∧
    kick.params.pitchDecayTime ≤ 1 / 10 := by decide +kernel

/-- NextSampleIsSilentWhileStopped and NextSampleComputesThenAdvances. -/
theorem witness_playing :
    State.reset.voice.isPlaying = false ∧ (machine kick fresh []).voice.isPlaying = true := by decide

/-- FirstSampleAfterTriggerIsZero. -/
theorem witness_first_sample :
    (machine kick released [trig, pull, .idle]).pending = trig :: pull :: [.idle] ∧
    0 < kick.params.attackTime ∧ 0 < kick.params.pitchDecayTime := by decide +kernel

/-- The bounds of ExactBounds hold in a voice just triggered. -/
theorem witness_exact_bounds : ExactBounds (machine kick fresh [trig]) :=
  ⟨rfl, ⟨by decide +kernel, by decide +kernel, by decide +kernel, by decide +kernel, by decide +kernel⟩,
    by decide +kernel, by decide +kernel, by decide +kernel, by decide +kernel, by decide +kernel⟩

/-- FiniteValuesAreKeptByEveryStep, and the premises of the statements about one operation: in exact arithmetic every
value is finite. -/
theorem witness_finite :
    FiniteValues (machine kick fresh [trig]) ∧ ∀ x, (machine kick fresh [trig]).ops.finite x = true :=
  ⟨⟨rfl, rfl, rfl, rfl, rfl, rfl, fun _ _ => rfl, fun _ _ => rfl⟩, fun _ => rfl⟩

/-- NonFiniteValuesAreRefused: for each clause a value that is not finite, in the format `capped` (and, for the sweep, in
one whose exponential is 3 but at 0). -/
theorem witness_non_finite :
    capped.finite 1001 = false ∧
    capped.finite (envValue capped (Config.defaults 8) (envelope 1 1001 1 false)) = false ∧
    ((envelope 1001 0 0 true).isActive = true ∧ capped.finite (envelope 1001 0 0 true).elapsedTime = false) ∧
    capped.finite (envAdvance capped (Config.defaults 8) (envelope 1000 0 0 true)).elapsedTime = false ∧
    capped.finite (swpAdvance capped (Config.defaults 8) (sweepAt 1000)).currentTime = false ∧
    capped.finite (sweepAt 1001).currentTime = false ∧
    (let P := { Config.defaults 8 with startFrequency := 500, endFrequency := -1 }
     let N := { capped with exp := fun x => if x = 0 then 1 else 3 }
     P.wf N = true ∧ N.finite (sweepValue N P (1 / 20)) = false) ∧
    (let P := { Config.defaults 8 with endFrequency := 200 }
     P.wf capped = true ∧ capped.finite (capped.mul P.kClickRatio (sweepValue capped P 1)) = false) := by decide +kernel

/-- SampleMagnitudeIsBounded: in a voice just triggered the sines are 0 and the decay is 1. -/
theorem witness_sample_bound :
    ExactBounds (machine kick fresh [trig]) ∧ (machine kick fresh [trig]).voice.isPlaying = true ∧
    (let s := machine kick fresh [trig]
     |s.ops.sin (s.ops.mul s.ops.twoPi s.voice.tonePhase)| ≤ 1 ∧
     |s.ops.sin (s.ops.mul s.ops.twoPi s.voice.clickPhase)| ≤ 1 ∧
     0 ≤ s.ops.exp (-s.params.kClickDecay * s.voice.currentTime) ∧
     s.ops.exp (-s.params.kClickDecay * s.voice.currentTime) ≤ 1) := by
  refine ⟨witness_exact_bounds, rfl, ?_⟩
  show |numSin .exact (Config.twoPi .exact * 0)| ≤ 1 ∧ |numSin .exact (Config.twoPi .exact * 0)| ≤ 1 ∧
    0 ≤ numExp .exact (-kick.params.kClickDecay * 0) ∧ numExp .exact (-kick.params.kClickDecay * 0) ≤ 1
  simp [numSin, numExp]

/-- OnlyListedOperationsWriteAnElement: for each state element an operation that changes it. -/
theorem witness_writes :
    voiceAfter (exec (.toneSine 150) (machine kick (phases 0 0) [])) = some (phases (150 / 48000) 0) ∧
    voiceAfter (exec (.clickSine 150) (machine kick (phases 0 0) [])) = some (phases 0 (150 / 48000)) ∧
    voiceAfter (exec .swpAdvance (machine p2 (sweepAt 0) [])) = some (sweepAt (1 / 8)) ∧
    voiceAfter (exec .envAdvance (machine p2 (envelope 0 0 0 true) [])) = some (envelope (1 / 8) 0 0 true) ∧
    voiceAfter (exec .noteOff (machine p2 (envelope 1 0 0 true) [])) = some (envelope 1 (1 / 2) 1 false) ∧
    voiceAfter (exec .trigger (machine p2 (VoiceState.atReset 0) [])) = some fresh := by decide +kernel

/-- DecodeOfEncodeIsTheOperation, DecodeAcceptsOnlyTheOperationsWord and NoOperationFails: an operation of each port. -/
theorem witness_wf :
    Instr.nextSample.wf = true ∧ Instr.nextSample.wfOn .command = true ∧ (Instr.toneSine 3).wf = true ∧
    (Instr.toneSine 3).wfOn .unitBus = true := by decide

/-- StepRunsTheDecodedCommand, StepRunsTheDecodedUnitOperation and IllegalWordRaisesCmdError, the last at both ends of
its range; RstTakesTheResetValues and NothingHappensWithoutACommand. -/
theorem witness_step_events :
    (machine kick fresh [.command 0x03#6]).pending = .command 0x03#6 :: [] ∧ decodeCmd 0x03#6 = some .noteOff ∧
    (machine kick fresh [.unitOp 0x23#6 0]).pending = .unitOp 0x23#6 0 :: [] ∧
    decodeUnitOp ⟨0x23#6, 0⟩ = .ok .swpTime ∧
    4 ≤ (0x04#6 : OpWord).toNat ∧ 4 ≤ (0x3F#6 : OpWord).toNat ∧
    (machine kick fresh [.rst]).pending = .rst :: [] ∧
    (machine kick fresh [.idle]).pending = .idle :: [] ∧ State.reset.pending = [] := by decide +kernel

/-- UnitBusRefusesReservedWords: for each clause a word at the boundary of its range. -/
theorem witness_reserved_words :
    (unitField 0x0A#6 = 1 ∧ uopField 0x0A#6 = 2) ∧ (unitField 0x12#6 = 2 ∧ uopField 0x12#6 = 2) ∧
    (unitField 0x1D#6 = 3 ∧ uopField 0x1D#6 = 5) ∧ (unitField 0x24#6 = 4 ∧ uopField 0x24#6 = 4) ∧
    unitField 0x28#6 = 5 ∧ (unitField 0x04#6 = 0 ∧ uopField 0x04#6 = 4) ∧
    (unitField 0x03#6 = 0 ∧ uopField 0x03#6 = 3) := by decide

/-- ResetStateIsZero's clauses: a positive release time, and none. -/
theorem witness_release_times :
    0 < kick.params.releaseTime ∧
    ∃ c : Configuration, c.params.releaseTime ≤ 0 :=
  ⟨by decide +kernel, exactly { Config.defaults 8 with releaseTime := 0 } (by decide +kernel), by decide +kernel⟩

/-- EveryCommandGetsOneResponse and LockstepIsKeptByEveryStep: a port-driven state of the reachable kind. -/
theorem witness_lockstep : Lockstep (machine kick fresh [pull]) ∧ (machine kick fresh [pull]).portOnly :=
  ⟨⟨by simp [RunState.portOnly, machine, pull, HostEvent.onPort], rfl, by decide⟩,
    by simp [RunState.portOnly, machine, pull, HostEvent.onPort]⟩

/-- NoStepChangesTheConfiguration and ExactBoundsAreKeptByEveryStep: a step that answers a next state. -/
theorem witness_step_next : ∃ t, step (machine kick fresh [trig]) = .next t := ⟨_, rfl⟩

/-- PlayingChangesOnlyAsTheRuleSays: `playing` rises at TRIGGER, falls at a pull (95_test_vectors.md P2, sample 9), and
falls at a reset. -/
theorem witness_playing_changes :
    (voiceAfter (step (machine p2 (VoiceState.atReset 0) [trig]))).map VoiceState.isPlaying = some true ∧
    (voiceAfter (step (machine p2 ⟨1 / 8, 0, 9 / 8, 9 / 8, 1 / 2, 1, false, true⟩ [pull]))).map VoiceState.isPlaying =
      some false ∧
    (voiceAfter (step (machine p2 fresh [.rst]))).map VoiceState.isPlaying = some false := by decide +kernel

/-- StoppedVoiceIsFrozenUntilTrigger: a stopped voice of the reachable kind that is pulled. -/
theorem witness_stopped :
    Lockstep (machine p2 (VoiceState.atReset 0) [pull]) ∧ (machine p2 (VoiceState.atReset 0) [pull]).playing = false :=
  ⟨⟨by simp [RunState.portOnly, machine, pull, HostEvent.onPort], rfl, by decide⟩, rfl⟩

/-- TheInvariantsHoldAtReset. -/
theorem witness_reset :
    (∀ e ∈ [(trig : HostEvent Number), pull, .rst], e.onPort = true) ∧ kick.num = .exact ∧ SensibleEnvelope kick.params :=
  ⟨by decide, rfl, by decide +kernel, by decide +kernel, by decide +kernel, by decide +kernel, by decide +kernel⟩

/-- ClocksGoBackOnlyWhenZeroed: each clock goes back at TRIGGER and at its unit's own operation. -/
theorem witness_clocks_go_back :
    voiceAfter (step (machine p2 released [trig])) = some ⟨0, 0, 0, 0, 1 / 2, 1, true, true⟩ ∧
    voiceAfter (step (machine p2 released [.unitOp 0x22#6 0])) = some ⟨0, 0, 0, 1, 1 / 2, 1, false, true⟩ ∧
    voiceAfter (step (machine p2 released [.unitOp 0x1A#6 0])) = some ⟨0, 0, 1, 0, 1 / 2, 1, true, true⟩ := by
  decide +kernel

/-- VoiceWithoutNoteOffPlaysForever. -/
theorem witness_sounding : Sounding (machine kick fresh [pull, trig, .idle, .command 0x08#6]) :=
  ⟨by decide, rfl, rfl⟩

/-- ClocksCountThePulls. -/
theorem witness_clocks_count :
    (machine kick released [trig, pull, pull]).cfg.num = .exact ∧
    (machine kick released [trig, pull, pull]).pending = trig :: (List.replicate 2 pull ++ []) := by decide

/-- ReleasedVoiceStopsOnTime: 95_test_vectors.md P2, whose voice stops at the second pull. -/
theorem witness_released :
    (let s := machine p2 released [pull, pull]
     s.cfg.num = .exact ∧ s.voice.isPlaying = true ∧ s.voice.isActive = false ∧
     s.voice.releaseStartTime = s.voice.elapsedTime ∧ s.pending = List.replicate 2 pull ++ []) := by decide +kernel

/-- SameViewGivesTheSameObservations: two stopped voices that differ in everything a host cannot see. -/
theorem witness_same_view :
    SameView (machine kick (VoiceState.atReset 0) [trig, pull]) (machine kick ⟨1, 2, 3, 4, 5, 6, true, false⟩ [trig, pull]) :=
  ⟨rfl, rfl, by simp [RunState.portOnly, machine, pull, trig, HostEvent.onPort], rfl, fun _ => .inl rfl,
    (nomatch ·), (nomatch ·), (nomatch ·), (nomatch ·), (nomatch ·), (nomatch ·), (nomatch ·)⟩

/-- TriggerForgetsThePast. -/
theorem witness_trigger_forgets :
    (machine kick fresh [trig, pull]).cfg = (machine kick released [trig, pull]).cfg ∧
    (machine kick fresh [trig, pull]).pending = trig :: [pull] ∧
    (machine kick released [trig, pull]).pending = trig :: [pull] ∧ (∀ e ∈ [(pull : HostEvent Number)], e.onPort = true) := by
  refine ⟨rfl, rfl, rfl, by decide⟩

end Sys2Proof.Tests
end

/-! ## The scope statements (00_scope.md): the block of a configuration, the named properties, and finite values -/

namespace Sys2Proof.Machine

/-! ### The named properties of NUM -/

/-- The reals have the named properties: any block over them carries the proof. -/
theorem realNumerics_lawful : Lawful realNumerics :=
  (realBlock ((Config.defaults 1).map ((↑) : ℚ → ℝ)) (by simp [Config.defaults, Params.map])).lawful

/-- Settles O59: a block carries the proof of the properties, and each format and the reals have it. -/
theorem everyFormatHasTheNamedProperties : Obligations.EveryFormatHasTheNamedProperties := by
  refine ⟨?_, numerics_lawful, realNumerics_lawful⟩
  intro α _ _ _ B
  have L := B.lawful
  exact ⟨L.exp_zero, L.sin_zero, L.zero_div, L.zero_div_of_finite, L.mul_zero, fun x => ⟨L.add_zero x, L.sub_zero x⟩,
    L.sub_self, L.sub_self 1 L.finite_one, L.lt_iff, L.ge_not_lt⟩

end Sys2Proof.Machine

namespace Sys2Proof

/-! ### The operand stands beside the word: decoding and meaning with another one -/

/-- The operation with the frequency `x`, where it has one (30_encoding.md R53). -/
def Instr.withOperand (x : Number) : Instr → Instr
  | .toneSine _ => .toneSine x
  | .clickSine _ => .clickSine x
  | i => i

@[simp] theorem Instr.withOperand_port (x : Number) (i : Instr) : (i.withOperand x).port = i.port := by
  cases i <;> rfl

theorem decodeUop_withOperand (unit : UnitName) (u : BitVec 3) (x y : Number) :
    decodeUop unit u x = (decodeUop unit u y).map (Instr.withOperand x) := by
  cases unit
  case voice => simp only [decodeUop, decodeVoice]; split_ifs <;> rfl
  case oscTone => simp only [decodeUop, decodeTone]; split_ifs <;> rfl
  case oscClick => simp only [decodeUop, decodeClick]; split_ifs <;> rfl
  case adsr => simp only [decodeUop, decodeAdsr]; split_ifs <;> rfl
  case sweep => simp only [decodeUop, decodeSweep]; split_ifs <;> rfl

theorem decode_withOperand (op : OpWord) (x y : Number) :
    decode ⟨op, x⟩ = (decode ⟨op, y⟩).map (Instr.withOperand x) := by
  simp only [decode]
  cases decodeUnitField (unitField op) with
  | none => rfl
  | some unit =>
    simp only [decodeUop_withOperand unit (uopField op) x y]
    cases decodeUop unit (uopField op) y <;> rfl

/-- The word alone decides what the unit bus carries; the operand only fills the frequency in (30_encoding.md R59). -/
theorem decodeUnitOp_withOperand (op : OpWord) (x y : Number) :
    decodeUnitOp ⟨op, x⟩ = (decodeUnitOp ⟨op, y⟩).map (Instr.withOperand x) := by
  simp only [decodeUnitOp, decode_withOperand op x y]
  cases decode ⟨op, y⟩ with
  | error e => rfl
  | ok i =>
    simp only [Except.map, Instr.withOperand_port]
    split_ifs <;> rfl

end Sys2Proof

namespace Sys2Proof.Machine

/-- A unit operation's own frequency is not read on a block: the operand beside it is (30_encoding.md R53). -/
theorem execOf_operand_withOperand (B : Block Number) (i : Instr) (x : Number) (s : RunState Number) :
    execOf B (i.withOperand x) (operand (i.withOperand x)) s = execOf B i x s := by
  cases i <;> rfl

/-- The four commands have no operand (30_encoding.md R53). -/
theorem operand_of_decodeCmd (op : OpWord) (i : Instr) (h : decodeCmd op = some i) : operand i = 0 := by
  obtain ⟨-, rfl⟩ | ⟨-, rfl⟩ | ⟨-, rfl⟩ | ⟨-, rfl⟩ := decodeCmd_cases op i h <;> rfl

/-- The machine and its block do the same with the event taken: it changes the block's state and no configuration. -/
theorem exec_onRun (i : Instr) (s : State) (f : RunState Number → RunState Number) :
    exec i (s.onRun f) = s.lift (execOf s.block i (operand i) (f s.toRunState)) := by
  rw [exec_eq_lift]
  rfl

/-- Settles O44, event by event: a command has no operand, and the unit bus decodes the word alone. -/
theorem stepIsTheBlocksStep : Obligations.StepIsTheBlocksStep := by
  intro s
  change step s = s.lift (stepOf s.block s.toRunState)
  unfold step stepOf
  cases s.pending with
  | nil => rfl
  | cons e rest =>
    cases e with
    | idle => rfl
    | rst => rfl
    | command op =>
      cases hi : decodeCmd op with
      | none => simp only [hi]; rfl
      | some i =>
        simp only [hi, exec_onRun, operand_of_decodeCmd op i hi, State.block_num, numerics_const_zero]
    | unitOp op arg =>
      simp only [decodeUnitOp_withOperand op arg 0]
      cases decodeUnitOp ⟨op, 0⟩ with
      | error e => rfl
      | ok i => simp only [Except.map, exec_onRun, execOf_operand_withOperand]

/-! ### What is refused -/

section
variable {α : Type} (N : Numerics α) (P : Params α)

/-- An operation with a value that is not finite is refused whole (00_scope.md R14). -/
theorem finish_of_mem_not_finite (values : List α) (t : RunState α) (x : α) (hx : x ∈ values)
    (h : N.finite x = false) : finish N values t = .refused .nonFinite :=
  (finish_refused N values t .nonFinite).mpr ⟨⟨x, hx, h⟩, rfl⟩

theorem captured_of_active (v : VoiceState α) (h : v.isActive = true) :
    captured N P v = [envValue N P v, v.elapsedTime] := if_pos h

/-- A pull while playing carries the values on the unit bus, the sample, and what it writes to the registers. -/
theorem pullValues_of_playing (v : VoiceState α) (h : v.isPlaying = true) :
    pullValues N P v =
      [sweepValue N P v.currentTime, envValue N P v,
        N.sin (N.mul N.twoPi v.tonePhase), (nextSample N P v).2.tonePhase,
        N.mul P.kClickRatio (sweepValue N P v.currentTime),
        N.sin (N.mul N.twoPi v.clickPhase), (nextSample N P v).2.clickPhase,
        v.currentTime, (nextSample N P v).1, (nextSample N P v).2.currentTime, (nextSample N P v).2.elapsedTime] := by
  simp only [pullValues, if_pos h, nextSample_of_playing N P v h, playingSample_tonePhase, playingSample_clickPhase]
  rfl

end

theorem State.lift_refused (s : State) (o : Host.Outcome (RunState Number) Fault Refusal) (r : Refusal) :
    s.lift o = .refused r ↔ o = .refused r := by
  cases o <;> simp [State.lift]

/-- Settles O30: each listed value is one of those that the operation must have finite. -/
theorem nonFiniteValuesAreRefused : Obligations.NonFiniteValuesAreRefused := by
  refine ⟨?_, fun i s => by rw [exec_eq_lift, State.lift_refused]⟩
  intro α _ _ _ B s i arg N P v bad h
  cases i
  case nop | trigger | toneReset | clickReset | envTrigger | envFinished | swpReset => exact h.elim
  case toneSine | clickSine =>
    obtain h | h | h := h <;> exact finish_of_mem_not_finite _ _ _ _ (by simp [N, P, v]) h
  case envValue | envAdvance | swpValue | swpAdvance | swpTime =>
    exact finish_of_mem_not_finite _ _ _ _ (.head _) h
  case noteOff | envRelease =>
    obtain ⟨active, h⟩ := h
    have values := captured_of_active N P v active
    obtain h | h := h <;> exact finish_of_mem_not_finite _ _ _ _ (by simp [values, N, P, v]) h
  case nextSample =>
    obtain ⟨playing, h⟩ := h
    have values := pullValues_of_playing N P v playing
    obtain h | h | h | h | h | h | h | h | h | h | h := h <;>
      exact finish_of_mem_not_finite _ _ _ _ (by rw [values]; simp) h

/-! ### What stays finite -/

section
variable {α : Type}

/-- Every value in a state element is finite: the part of FiniteValues about S0 to S5, over any number type. -/
structure FiniteVoice (N : Numerics α) (v : VoiceState α) : Prop where
  tone : N.finite v.tonePhase = true
  click : N.finite v.clickPhase = true
  current : N.finite v.currentTime = true
  elapsed : N.finite v.elapsedTime = true
  level : N.finite v.releaseStartLevel = true
  start : N.finite v.releaseStartTime = true

/-- FiniteValues of a block over any number type (finiteValues_iff). -/
structure FiniteRun (N : Numerics α) (s : RunState α) : Prop where
  voice : FiniteVoice N s.voice
  rsp : ∀ d, s.rsp = some (.data d) → N.finite d = true
  bus : ∀ a, s.bus = some (.num a) → N.finite a = true

theorem finiteValues_iff (s : State) : FiniteValues s ↔ FiniteRun s.ops s.toRunState :=
  ⟨fun h => ⟨⟨h.tone, h.click, h.current, h.elapsed, h.level, h.start⟩, h.rsp, h.bus⟩,
    fun h => ⟨h.voice.tone, h.voice.click, h.voice.current, h.voice.elapsed, h.voice.level, h.voice.start, h.rsp, h.bus⟩⟩

variable {N : Numerics α} {P : Params α} {v : VoiceState α} {s : RunState α}

/-! The shared operations on a state. -/

theorem FiniteVoice.atReset {zero : α} (h : N.finite zero = true) : FiniteVoice N (VoiceState.atReset zero) :=
  ⟨h, h, h, h, h, h⟩

theorem FiniteRun.accept (h : FiniteRun N s) (rest : List (HostEvent α)) : FiniteRun N (s.accept rest) :=
  ⟨h.voice, by simp, by simp⟩

theorem FiniteRun.applyReset (h : FiniteRun N s) {zero : α} (hz : N.finite zero = true) :
    FiniteRun N (s.applyReset zero) :=
  ⟨.atReset hz, h.rsp, h.bus⟩

theorem FiniteRun.takeCmdError (h : FiniteRun N s) (op : OpWord) : FiniteRun N (s.takeCmdError op) :=
  ⟨h.voice, by simp, h.bus⟩

theorem FiniteRun.respond {d : α} (h : FiniteRun N s) (hv : FiniteVoice N v) (hd : N.finite d = true) :
    FiniteRun N ({ s with voice := v }.respond d) :=
  ⟨hv, by simpa using hd, h.bus⟩

theorem FiniteRun.answer {r : UnitResult α} (h : FiniteRun N s) (hv : FiniteVoice N v)
    (hr : ∀ a, r = .num a → N.finite a = true) : FiniteRun N ({ s with voice := v }.answer r) :=
  ⟨hv, h.rsp, by simpa using hr⟩

/-! The changes of the voice. -/

theorem FiniteVoice.voiceTrigger (h : FiniteVoice N v) (hz : N.finite (N.const 0) = true) :
    FiniteVoice N (voiceTrigger N v) :=
  ⟨hz, hz, hz, hz, h.level, h.start⟩

theorem FiniteVoice.envRelease (h : FiniteVoice N v) (hc : ∀ x ∈ captured N P v, N.finite x = true) :
    FiniteVoice N (envRelease N P v) := by
  cases active : v.isActive with
  | false => rwa [envRelease_of_inactive N P v active]
  | true =>
    have hl : N.finite (envValue N P v) = true := hc _ (by simp [captured_of_active N P v active])
    have value : envValue N P v = envValueActive N P v.elapsedTime := if_pos active
    rw [envRelease_of_active N P v active, ← value]
    exact ⟨h.tone, h.click, h.current, h.elapsed, hl, h.elapsed⟩

/-- A pull whose values are finite leaves the voice finite, and its sample is finite. -/
theorem FiniteVoice.nextSample (h : FiniteVoice N v) (hz : N.finite (N.const 0) = true)
    (hp : ∀ x ∈ pullValues N P v, N.finite x = true) :
    FiniteVoice N (nextSample N P v).2 ∧ N.finite (nextSample N P v).1 = true := by
  cases playing : v.isPlaying with
  | false =>
    rw [nextSample_of_stopped N P v playing]
    exact ⟨h, hz⟩
  | true =>
    rw [pullValues_of_playing N P v playing] at hp
    simp only [List.forall_mem_cons] at hp
    obtain ⟨-, -, -, tone, -, -, click, -, out, current, elapsed, -⟩ := hp
    refine ⟨⟨tone, click, current, elapsed, ?_, ?_⟩, out⟩
    · simpa [nextSample_of_playing N P v playing] using h.level
    · simpa [nextSample_of_playing N P v playing] using h.start

end

/-- The number 0 that an operation writes is finite. -/
theorem finite_const_zero {α : Type} [Zero α] [One α] [LT α] (B : Block α) : B.num.finite (B.num.const 0) = true :=
  B.lawful.const_zero ▸ B.lawful.finite_zero

/-- Every operation of a block that answers leaves all values finite: it writes the number 0, or values that it had to
have finite. -/
theorem execOf_keeps_finiteRun {α : Type} [Zero α] [One α] [LT α] (B : Block α) (i : Instr) (arg : α) (s t : RunState α)
    (h : FiniteRun B.num s) (ht : execOf B i arg s = .next t) : FiniteRun B.num t := by
  have hz := finite_const_zero B
  have hv := h.voice
  cases i
  case nop => cases ht; exact h.respond hv hz
  case trigger => cases ht; exact h.respond (hv.voiceTrigger hz) hz
  case toneReset => cases ht; exact h.answer { hv with tone := hz } nofun
  case clickReset => cases ht; exact h.answer { hv with click := hz } nofun
  case envTrigger => cases ht; exact h.answer { hv with elapsed := hz } nofun
  case swpReset => cases ht; exact h.answer { hv with current := hz } nofun
  case envFinished => cases ht; exact h.answer hv nofun
  all_goals obtain ⟨hf, rfl⟩ := (finish_next _ _ _ _).mp ht
  case nextSample =>
    obtain ⟨hvoice, hout⟩ := hv.nextSample hz hf
    exact h.respond hvoice hout
  case noteOff => exact h.respond (hv.envRelease hf) hz
  case envRelease => exact h.answer (hv.envRelease hf) nofun
  all_goals simp only [List.forall_mem_cons] at hf
  case toneSine =>
    obtain ⟨-, sample, phase, -⟩ := hf
    exact h.answer { hv with tone := phase } (by simpa using sample)
  case clickSine =>
    obtain ⟨-, sample, phase, -⟩ := hf
    exact h.answer { hv with click := phase } (by simpa using sample)
  case envAdvance => exact h.answer { hv with elapsed := hf.1 } nofun
  case swpAdvance => exact h.answer { hv with current := hf.1 } nofun
  case envValue | swpValue | swpTime => exact h.answer hv (by simpa using hf.1)

/-- The machine's operations keep FiniteValues (00_scope.md R14). -/
theorem exec_keeps_finiteValues (i : Instr) (s t : State) (h : FiniteValues s) (ht : exec i s = .next t) :
    FiniteValues t := by
  rw [exec_eq_lift, State.lift_next] at ht
  obtain ⟨hrun, hcfg⟩ := ht
  rw [finiteValues_iff] at h ⊢
  rw [show t.ops = s.ops from congrArg (numerics ·.num) hcfg]
  exact execOf_keeps_finiteRun s.block i _ _ _ h hrun

/-- Settles O50, by the cases of a step: the event is taken with the ports empty, and then an operation, a reset or the
error of an illegal word keeps every value finite. -/
theorem finiteValuesAreKeptByEveryStep : Obligations.FiniteValuesAreKeptByEveryStep := by
  intro s t h ht
  have run := (finiteValues_iff s).mp h
  have accepted (rest) : FiniteValues (s.onRun (.accept rest)) := (finiteValues_iff _).mpr (run.accept rest)
  obtain ⟨-, rfl⟩ | ⟨e, rest, -, hcase⟩ := step_cases s t ht
  · exact accepted []
  obtain ⟨-, rfl⟩ | ⟨-, rfl⟩ | ⟨-, i, -, -, hi⟩ | ⟨op, -, -, rfl⟩ | ⟨-, -, i, -, -, hi⟩ := hcase
  · exact accepted rest
  · exact (finiteValues_iff _).mpr ((run.accept rest).applyReset (finite_const_zero s.block))
  · exact exec_keeps_finiteValues i _ t (accepted rest) hi
  · exact (finiteValues_iff _).mpr ((run.accept rest).takeCmdError op)
  · exact exec_keeps_finiteValues i _ t (accepted rest) hi

end Sys2Proof.Machine

/-! ## The state statements (10_state.md): what a step can do to the voice, the invariants, and what a host can see -/

namespace Sys2Proof.Machine

/-! ### The operation that an event presents -/

section
variable {α : Type}

/-- The event presents the operation: its word stands on the port that the operation travels on. -/
def HostEvent.presents (i : Instr) : HostEvent α → Prop
  | .command op => op = opWord i ∧ i.port = .command
  | .unitOp op _ => op = opWord i ∧ i.port = .unitBus
  | .idle | .rst => False

theorem HostEvent.presents_trigger (e : HostEvent α) : e.presents .trigger ↔ e = trig := by
  cases e <;> simp [HostEvent.presents, opWord, Instr.port, Instr.unit, trig]

theorem HostEvent.presents_nextSample (e : HostEvent α) : e.presents .nextSample ↔ e = pull := by
  cases e <;> simp [HostEvent.presents, opWord, Instr.port, Instr.unit, pull]

theorem HostEvent.presents_envTrigger (e : HostEvent α) : e.presents .envTrigger ↔ ∃ arg, e = .unitOp 0x1A#6 arg := by
  cases e <;> simp [HostEvent.presents, opWord, Instr.port, Instr.unit]

theorem HostEvent.presents_swpReset (e : HostEvent α) : e.presents .swpReset ↔ ∃ arg, e = .unitOp 0x22#6 arg := by
  cases e <;> simp [HostEvent.presents, opWord, Instr.port, Instr.unit]

/-- A port of the host presents commands alone (30_encoding.md R59). -/
theorem HostEvent.port_of_presents {i : Instr} {e : HostEvent α} (h : e.presents i) (he : e.onPort = true) :
    i.port = .command := by
  cases e with
  | command op => exact h.2
  | idle | rst => exact h.elim
  | unitOp op arg => cases he

end

theorem presents_of_decodeCmd {α : Type} (op : OpWord) (i : Instr) (h : decodeCmd op = some i) :
    (HostEvent.command op : HostEvent α).presents i := by
  obtain ⟨rfl, rfl⟩ | ⟨rfl, rfl⟩ | ⟨rfl, rfl⟩ | ⟨rfl, rfl⟩ := decodeCmd_cases op i h <;> exact ⟨rfl, rfl⟩

/-- Each of the 64 words that names an operation is that operation's word (30_encoding.md R52). -/
theorem opWord_of_decode (op : OpWord) (i : Instr) (h : decode ⟨op, 0⟩ = .ok i) : opWord i = op := by
  have words : ∀ op : OpWord, (decode ⟨op, 0⟩).toOption.all (fun i => opWord i == op) = true := by decide
  have word := words op
  rw [h] at word
  exact beq_iff_eq.mp word

theorem presents_of_decodeUnitOp {α : Type} (op : OpWord) (arg : α) (i : Instr) (h : decodeUnitOp ⟨op, 0⟩ = .ok i) :
    (HostEvent.unitOp op arg).presents i := by
  unfold decodeUnitOp at h
  split at h
  · cases h
  · rename_i j hj
    split_ifs at h with hport
    cases h
    refine ⟨(opWord_of_decode op i hj).symm, ?_⟩
    cases hp : i.port with
    | command => exact absurd hp hport
    | unitBus => rfl

/-! ### What a step does to the voice -/

section
variable {α : Type} (N : Numerics α) (P : Params α)

/-- The eight state elements after an operation that answers (execOf_voice). -/
def voiceAfter (i : Instr) (arg : α) (v : VoiceState α) : VoiceState α :=
  match i with
  | .nop | .envValue | .envFinished | .swpValue | .swpTime => v
  | .trigger => voiceTrigger N v
  | .nextSample => (nextSample N P v).2
  | .noteOff | .envRelease => envRelease N P v
  | .toneSine _ => (toneSine N P arg v).2
  | .toneReset => toneReset N v
  | .clickSine _ => (clickSine N P arg v).2
  | .clickReset => clickReset N v
  | .envAdvance => envAdvance N P v
  | .envTrigger => envTrigger N v
  | .swpAdvance => swpAdvance N P v
  | .swpReset => swpReset N v

/-- A pull is silence from a stopped voice, which it leaves as it is, or a playing voice's sample (43_voice_mixer.md R143,
R144). -/
theorem nextSample_cases (v : VoiceState α) :
    (v.isPlaying = false ∧ nextSample N P v = (N.const 0, v)) ∨
    (v.isPlaying = true ∧ nextSample N P v = playingSample N P v) := by
  cases playing : v.isPlaying with
  | false => exact .inl ⟨rfl, nextSample_of_stopped N P v playing⟩
  | true => exact .inr ⟨rfl, nextSample_of_playing N P v playing⟩

/-- A pull that finds the voice playing leaves it playing exactly when the envelope it leaves has not finished. -/
theorem nextSample_isPlaying (v : VoiceState α) :
    (nextSample N P v).2.isPlaying = (v.isPlaying && !envIsFinished N P (nextSample N P v).2) := by
  obtain ⟨playing, hv⟩ | ⟨-, hv⟩ := nextSample_cases N P v
  · simp [hv, playing]
  · rw [hv, playingSample_isPlaying]
    simp [envIsFinished]

/-- Only TRIGGER and NEXT_SAMPLE write `is_playing` (10_state.md R27). -/
theorem voiceAfter_isPlaying (i : Instr) (arg : α) (v : VoiceState α) (trigger : i ≠ .trigger)
    (pull : i ≠ .nextSample) : (voiceAfter N P i arg v).isPlaying = v.isPlaying := by
  cases i
  case trigger | nextSample => contradiction
  case noteOff | envRelease => exact envRelease_isPlaying N P v
  all_goals rfl

/-- What an operation does to the sweep's clock: keep it, advance it by one sample period, or zero it
(10_state.md R22). -/
theorem voiceAfter_currentTime (i : Instr) (arg : α) (v : VoiceState α) :
    (voiceAfter N P i arg v).currentTime = v.currentTime ∨
    (voiceAfter N P i arg v).currentTime = N.add v.currentTime (samplePeriod N P) ∨
    ((i = .trigger ∨ i = .swpReset) ∧ (voiceAfter N P i arg v).currentTime = N.const 0) := by
  cases i
  case trigger => exact .inr (.inr ⟨.inl rfl, rfl⟩)
  case swpReset => exact .inr (.inr ⟨.inr rfl, rfl⟩)
  case swpAdvance => exact .inr (.inl rfl)
  case noteOff | envRelease => exact .inl (envRelease_currentTime N P v)
  case nextSample =>
    obtain ⟨-, hv⟩ | ⟨-, hv⟩ := nextSample_cases N P v <;> simp [voiceAfter, hv]
  all_goals exact .inl rfl

/-- What an operation does to the envelope's clock: keep it, advance it by one sample period, or zero it
(10_state.md R23). -/
theorem voiceAfter_elapsedTime (i : Instr) (arg : α) (v : VoiceState α) :
    (voiceAfter N P i arg v).elapsedTime = v.elapsedTime ∨
    (voiceAfter N P i arg v).elapsedTime = N.add v.elapsedTime (samplePeriod N P) ∨
    ((i = .trigger ∨ i = .envTrigger) ∧ (voiceAfter N P i arg v).elapsedTime = N.const 0) := by
  cases i
  case trigger => exact .inr (.inr ⟨.inl rfl, rfl⟩)
  case envTrigger => exact .inr (.inr ⟨.inr rfl, rfl⟩)
  case envAdvance => exact .inr (.inl rfl)
  case noteOff | envRelease => exact .inl (envRelease_elapsedTime N P v)
  case nextSample =>
    obtain ⟨-, hv⟩ | ⟨-, hv⟩ := nextSample_cases N P v <;> simp [voiceAfter, hv]
  all_goals exact .inl rfl

end

section
variable {α : Type} [Zero α] [One α] [LT α] (B : Block α)

theorem execOf_voice (i : Instr) (arg : α) (s t : RunState α) (h : execOf B i arg s = .next t) :
    t.voice = voiceAfter B.num B.params i arg s.voice := by
  cases i
  case nextSample | noteOff | toneSine | clickSine | envValue | envAdvance | envRelease | swpValue | swpAdvance
      | swpTime =>
    obtain ⟨-, rfl⟩ := (finish_next _ _ _ _).mp h
    rfl
  all_goals
    cases h
    rfl

/-- What an operation makes of a block that has taken its event. -/
theorem execOf_accept (i : Instr) (arg : α) (s t : RunState α) (rest : List (HostEvent α))
    (h : execOf B i arg (s.accept rest) = .next t) :
    t.pending = rest ∧ t.voice = voiceAfter B.num B.params i arg s.voice :=
  ⟨(execOf_outer B i arg _ t h).1, execOf_voice B i arg (s.accept rest) t h⟩

/-- What a step of a block that answers can do: the event is taken, and the voice is kept, is reset, or is what the
operation that the event presents makes of it. -/
theorem stepOf_cases (s t : RunState α) (h : stepOf B s = .next t) :
    t.pending = s.pending.tail ∧
    (t.voice = s.voice ∨
     (∃ rest, s.pending = .rst :: rest ∧ t.voice = VoiceState.atReset (B.num.const 0)) ∨
     ∃ e rest i arg, s.pending = e :: rest ∧ e.presents i ∧
       t.voice = voiceAfter B.num B.params i arg s.voice) := by
  unfold stepOf at h
  split at h
  · rename_i hp
    cases h
    exact ⟨by simp [hp], .inl rfl⟩
  · rename_i rest hp
    cases h
    exact ⟨by simp [hp], .inl rfl⟩
  · rename_i rest hp
    cases h
    exact ⟨by simp [hp], .inr (.inl ⟨rest, hp, rfl⟩)⟩
  · rename_i op rest hp
    split at h
    · rename_i i hi
      obtain ⟨hpending, hv⟩ := execOf_accept B i _ s t rest h
      exact ⟨by simp [hp, hpending], .inr (.inr ⟨_, rest, i, _, hp, presents_of_decodeCmd op i hi, hv⟩)⟩
    · cases h
      exact ⟨by simp [hp], .inl rfl⟩
  · rename_i op arg rest hp
    split at h
    · rename_i i hi
      obtain ⟨hpending, hv⟩ := execOf_accept B i arg s t rest h
      exact ⟨by simp [hp, hpending], .inr (.inr ⟨_, rest, i, arg, hp, presents_of_decodeUnitOp op arg i hi, hv⟩)⟩
    · cases h

end

/-- The machine's step is its block's step, in the block's own name. -/
theorem step_eq_lift (s : State) : step s = s.lift (stepOf s.block s.toRunState) := stepIsTheBlocksStep s

theorem step_next (s t : State) (h : step s = .next t) :
    stepOf s.block s.toRunState = .next t.toRunState ∧ t.cfg = s.cfg := by
  rw [step_eq_lift] at h
  exact (s.lift_next t _).mp h

/-- What a step of the machine can do to the voice: `stepOf_cases` of its block. -/
theorem step_voice_cases (s t : State) (h : step s = .next t) :
    t.voice = s.voice ∨
    (∃ rest, s.pending = .rst :: rest ∧ t.voice = VoiceState.atReset 0) ∨
    ∃ e rest i arg, s.pending = e :: rest ∧ e.presents i ∧ t.voice = voiceAfter s.ops s.params i arg s.voice := by
  have hv := (stepOf_cases s.block _ _ (step_next s t h).1).2
  rwa [State.block_num, numerics_const_zero] at hv

/-- A step takes the host's first event. -/
theorem step_pending (s t : State) (h : step s = .next t) : t.pending = s.pending.tail :=
  (stepOf_cases s.block _ _ (step_next s t h).1).1

/-! ### The clocks in lockstep, and a stopped voice inactive (10_state.md R39 (a), (b)) -/

/-- Lockstep of the voice alone (lockstep_iff), over any number type. -/
structure LockstepVoice {α : Type} (v : VoiceState α) : Prop where
  clocks : v.currentTime = v.elapsedTime
  stopped : v.isPlaying = false → v.isActive = false

theorem lockstep_iff (s : State) : Lockstep s ↔ s.portOnly ∧ LockstepVoice s.voice :=
  ⟨fun h => ⟨h.ports, h.clocks, h.stopped⟩, fun h => ⟨h.1, h.2.clocks, h.2.stopped⟩⟩

/-- A pull advances both clocks by the same sample period, and stops the voice only when its envelope has finished,
which an active one has not. -/
theorem LockstepVoice.nextSample {α : Type} {N : Numerics α} {P : Params α} {v : VoiceState α} (h : LockstepVoice v) :
    LockstepVoice (nextSample N P v).2 := by
  obtain ⟨-, hv⟩ | ⟨playing, hv⟩ := nextSample_cases N P v
  · rwa [hv]
  · rw [hv]
    constructor
    · simp [h.clocks]
    · rw [playingSample_isPlaying, playing, playingSample_isActive]
      simp +contextual [envIsFinished]

/-- The four commands keep the clocks in lockstep: TRIGGER zeroes both, and NOTE_OFF writes neither. -/
theorem LockstepVoice.voiceAfter {α : Type} {N : Numerics α} {P : Params α} {v : VoiceState α} (h : LockstepVoice v)
    (i : Instr) (arg : α) (hi : i.port = .command) : LockstepVoice (voiceAfter N P i arg v) := by
  cases i
  case nop => exact h
  case trigger => exact ⟨rfl, nofun⟩
  case nextSample => exact h.nextSample
  case noteOff => exact ⟨by simpa [Machine.voiceAfter] using h.clocks, fun _ => envRelease_isActive N P v⟩
  all_goals cases hi

/-- Settles O48: the ports present commands alone, and those and a reset keep the voice in lockstep. -/
theorem lockstepIsKeptByEveryStep : Obligations.LockstepIsKeptByEveryStep := by
  intro s t h ht
  obtain ⟨ports, voice⟩ := (lockstep_iff s).mp h
  refine (lockstep_iff t).mpr ⟨?_, ?_⟩
  · intro e he
    rw [step_pending s t ht] at he
    exact ports e (List.mem_of_mem_tail he)
  · obtain hv | ⟨-, -, hv⟩ | ⟨e, rest, i, arg, hp, he, hv⟩ := step_voice_cases s t ht
    · rwa [hv]
    · rw [hv]
      exact ⟨rfl, fun _ => rfl⟩
    · rw [hv]
      exact voice.voiceAfter i arg (HostEvent.port_of_presents he (ports e (by simp [hp])))

/-! ### Exact arithmetic, over any ordered field (00_scope.md R10) -/

section
variable {α : Type} [Field α] [LinearOrder α]

/-- NUM computes exactly: the exact format of the machine and the reals do (exact_isExact, real_isExact). -/
structure IsExact (N : Numerics α) : Prop where
  finite : ∀ x, N.finite x = true
  add : ∀ a b, N.add a b = a + b
  sub : ∀ a b, N.sub a b = a - b
  mul : ∀ a b, N.mul a b = a * b
  div : ∀ a b, b ≠ 0 → N.div a b = a / b
  lt : ∀ a b, N.lt a b = true ↔ a < b
  ge : ∀ a b, N.ge a b = true ↔ b ≤ a
  zero : N.const 0 = 0
  one : N.const 1 = 1

/-- The sample period of a valid configuration (10_state.md R33). -/
theorem IsExact.samplePeriod_eq {N : Numerics α} (E : IsExact N) {P : Params α} (hP : 0 < P.sampleRate) :
    samplePeriod N P = 1 / P.sampleRate := by
  rw [samplePeriod, E.div _ _ hP.ne', E.one]

end

theorem exact_isExact : IsExact (numerics .exact) where
  finite := exact_finite
  add := exact_add
  sub := exact_sub
  mul := exact_mul
  div := exact_div
  lt a b := by simp
  ge a b := by simp
  zero := rfl
  one := rfl

theorem real_isExact : IsExact realNumerics where
  finite _ := rfl
  add _ _ := rfl
  sub _ _ := rfl
  mul _ _ := rfl
  div _ _ _ := rfl
  lt a b := by simp [realNumerics]
  ge a b := by simp [realNumerics]
  zero := by simp [realNumerics]
  one := by simp [realNumerics]

/-- A machine in the exact format computes exactly. -/
theorem State.isExact {s : State} (h : s.cfg.num = .exact) : IsExact s.ops := by
  rw [State.ops, h]
  exact exact_isExact

/-! ### The bounds of the reachable state (10_state.md R39 (c), 41_adsr_envelope.md R102) -/

/-- A voice whose clocks do not go back, and whose other bounded elements stay, stays within the bounds. -/
theorem VoiceBounds.of_clocks_advance {α : Type} [Zero α] [One α] [Preorder α] {v w : VoiceState α} (h : VoiceBounds v)
    (current : v.currentTime ≤ w.currentTime) (elapsed : v.elapsedTime ≤ w.elapsedTime)
    (level : w.releaseStartLevel = v.releaseStartLevel) (start : w.releaseStartTime = v.releaseStartTime)
    (active : w.isActive = v.isActive) : VoiceBounds w where
  elapsed := h.elapsed.trans elapsed
  current := h.current.trans current
  level_nonneg := level ▸ h.level_nonneg
  level_le_one := level ▸ h.level_le_one
  started inactive := start ▸ (h.started (active ▸ inactive)).trans elapsed

section
variable {α : Type} [Field α] [LinearOrder α] [IsStrictOrderedRing α] {N : Numerics α} {P : Params α}
  {v : VoiceState α}

theorem IsExact.samplePeriod_pos (E : IsExact N) (hP : 0 < P.sampleRate) : 0 < samplePeriod N P := by
  rw [E.samplePeriod_eq hP]
  exact one_div_pos.mpr hP

/-- The active envelope lies in [0, 1]: it rises to 1 in the attack, falls to the sustain level in the decay, and each
quotient has a positive divisor and lies in [0, 1] (41_adsr_envelope.md R99, R102). -/
theorem IsExact.envValueActive_mem (E : IsExact N) (hP : SensibleEnvelope P) (t : α) (ht : 0 ≤ t) :
    0 ≤ envValueActive N P t ∧ envValueActive N P t ≤ 1 := by
  simp only [envValueActive, E.lt, E.add, E.sub, E.mul, E.one]
  split_ifs with attack decay
  · have hA : 0 < P.attackTime := ht.trans_lt attack
    rw [E.div _ _ hA.ne']
    exact ⟨div_nonneg ht hA.le, (div_le_one hA).mpr attack.le⟩
  · have started : 0 ≤ t - P.attackTime := sub_nonneg.mpr (not_lt.mp attack)
    have unfinished : t - P.attackTime < P.decayTime := sub_lt_iff_lt_add'.mpr decay
    have hD : 0 < P.decayTime := started.trans_lt unfinished
    have fallen : 0 ≤ 1 - P.sustainLevel := sub_nonneg.mpr hP.sustain_le_one
    have fallen_le : 1 - P.sustainLevel ≤ 1 := sub_le_self 1 hP.sustain_nonneg
    have part : 0 ≤ (t - P.attackTime) / P.decayTime := div_nonneg started hD.le
    have part_le : (t - P.attackTime) / P.decayTime ≤ 1 := (div_le_one hD).mpr unfinished.le
    rw [E.div _ _ hD.ne']
    exact ⟨sub_nonneg.mpr (mul_le_one₀ fallen_le part part_le), sub_le_self 1 (mul_nonneg fallen part)⟩
  · exact ⟨hP.sustain_nonneg, hP.sustain_le_one⟩

theorem voiceBounds_atReset : VoiceBounds (VoiceState.atReset (0 : α)) :=
  ⟨le_rfl, le_rfl, le_rfl, zero_le_one, fun _ => le_rfl⟩

theorem VoiceBounds.envRelease (h : VoiceBounds v) (E : IsExact N) (hP : SensibleEnvelope P) :
    VoiceBounds (envRelease N P v) := by
  cases active : v.isActive with
  | false => rwa [envRelease_of_inactive N P v active]
  | true =>
    rw [envRelease_of_active N P v active]
    obtain ⟨level_nonneg, level_le_one⟩ := E.envValueActive_mem hP v.elapsedTime h.elapsed
    exact ⟨h.elapsed, h.current, level_nonneg, level_le_one, fun _ => le_rfl⟩

theorem VoiceBounds.nextSample (h : VoiceBounds v) (E : IsExact N) (hd : 0 ≤ samplePeriod N P) :
    VoiceBounds (nextSample N P v).2 := by
  obtain ⟨-, hv⟩ | ⟨-, hv⟩ := nextSample_cases N P v
  · rwa [hv]
  · rw [hv]
    exact h.of_clocks_advance (by simp [E.add, hd]) (by simp [E.add, hd]) (by simp) (by simp) (by simp)

/-- Every operation keeps the bounds: time only advances, or starts again with the envelope active, and a captured level
is the value of the active envelope. -/
theorem VoiceBounds.voiceAfter (h : VoiceBounds v) (E : IsExact N) (hP : SensibleEnvelope P)
    (hd : 0 ≤ samplePeriod N P) (i : Instr) (arg : α) : VoiceBounds (voiceAfter N P i arg v) := by
  have zero : (0 : α) ≤ N.const 0 := E.zero.ge
  cases i
  case trigger => exact ⟨zero, zero, h.level_nonneg, h.level_le_one, nofun⟩
  case envTrigger => exact ⟨zero, h.current, h.level_nonneg, h.level_le_one, nofun⟩
  case swpReset => exact { h with current := zero }
  case nextSample => exact h.nextSample E hd
  case noteOff | envRelease => exact h.envRelease E hP
  case envAdvance => exact h.of_clocks_advance le_rfl (by simp [Machine.voiceAfter, E.add, hd]) rfl rfl rfl
  case swpAdvance => exact h.of_clocks_advance (by simp [Machine.voiceAfter, E.add, hd]) le_rfl rfl rfl rfl
  case toneSine | toneReset | clickSine | clickReset =>
    exact ⟨h.elapsed, h.current, h.level_nonneg, h.level_le_one, h.started⟩
  case nop | envValue | envFinished | swpValue | swpTime => exact h

end

/-- Settles O49: a step keeps the configuration, and the voice it leaves is within the bounds in each of its cases. -/
theorem exactBoundsAreKeptByEveryStep : Obligations.ExactBoundsAreKeptByEveryStep := by
  intro s t h ht
  have hcfg : t.cfg = s.cfg := (step_next s t ht).2
  have E : IsExact s.ops := State.isExact h.exact
  have hd : 0 ≤ samplePeriod s.ops s.params := (E.samplePeriod_pos (sampleRate_pos s.cfg)).le
  refine ⟨hcfg ▸ h.exact, by simpa only [State.params, hcfg] using h.sensible, ?_⟩
  obtain hv | ⟨-, -, hv⟩ | ⟨-, -, i, arg, -, -, hv⟩ := step_voice_cases s t ht
  · exact hv ▸ h.voice
  · exact hv ▸ voiceBounds_atReset
  · exact hv ▸ h.voice.voiceAfter E h.sensible hd i arg

/-! ### The configuration and `playing` -/

/-- Settles O45: the block's step has the configuration as a parameter, so the machine's step keeps it. -/
theorem noStepChangesTheConfiguration : Obligations.NoStepChangesTheConfiguration :=
  fun s t h => (step_next s t h).2

/-- Settles O46: of the operations only TRIGGER and NEXT_SAMPLE write `playing`, and each is presented by one event. -/
theorem playingChangesOnlyAsTheRuleSays : Obligations.PlayingChangesOnlyAsTheRuleSays := by
  intro s t h
  have hcfg : t.cfg = s.cfg := (step_next s t h).2
  simp only [RunState.playing, State.ops, State.params, hcfg]
  obtain hv | ⟨rest, hp, hv⟩ | ⟨e, rest, i, arg, hp, he, hv⟩ := step_voice_cases s t h
  · simp +contextual [hv]
  · simp [hv, hp]
  by_cases trigger : i = .trigger
  · subst trigger
    obtain rfl := (HostEvent.presents_trigger e).mp he
    exact ⟨fun _ _ => ⟨rest, hp⟩, by simp [hv, voiceAfter]⟩
  by_cases sample : i = .nextSample
  · subst sample
    obtain rfl := (HostEvent.presents_nextSample e).mp he
    have hplay : t.voice.isPlaying = (s.voice.isPlaying && !envIsFinished s.ops s.params t.voice) :=
      hv ▸ nextSample_isPlaying s.ops s.params s.voice
    constructor
    · intro stopped
      simp [hplay, stopped]
    · intro playing stopped
      exact ⟨rest, .inr ⟨hp, by simpa [hplay, playing] using stopped⟩⟩
  · rw [hv, voiceAfter_isPlaying _ _ i arg _ trigger sample]
    simp +contextual

/-! ### The clocks -/

/-- Settles O53: a clock that goes back was neither kept nor advanced, so it was zeroed. -/
theorem clocksGoBackOnlyWhenZeroed : Obligations.ClocksGoBackOnlyWhenZeroed := by
  intro s t hx h
  have E : IsExact s.ops := State.isExact hx
  have hd : 0 < samplePeriod s.ops s.params := E.samplePeriod_pos (sampleRate_pos s.cfg)
  have zeroed {c c' : Number} {Q : Prop} (back : c' < c)
      (clock : c' = c ∨ c' = s.ops.add c (samplePeriod s.ops s.params) ∨ Q) : Q := by
    obtain kept | advanced | hQ := clock
    · exact absurd kept back.ne
    · rw [advanced, E.add] at back
      exact absurd back (lt_add_of_pos_right c hd).not_gt
    · exact hQ
  obtain hv | ⟨rest, hp, hv⟩ | ⟨e, rest, i, arg, hp, he, hv⟩ := step_voice_cases s t h
  · simp [hv]
  · exact ⟨fun _ => ⟨by rw [hv]; rfl, rest, .inr (.inl hp)⟩, fun _ => ⟨by rw [hv]; rfl, rest, .inr (.inl hp)⟩⟩
  rw [hv]
  constructor
  · intro back
    obtain ⟨hi, hc⟩ := zeroed back (voiceAfter_currentTime s.ops s.params i arg s.voice)
    refine ⟨hc.trans E.zero, rest, ?_⟩
    obtain rfl | rfl := hi
    · exact .inl ((HostEvent.presents_trigger e).mp he ▸ hp)
    · obtain ⟨u, rfl⟩ := (HostEvent.presents_swpReset e).mp he
      exact .inr (.inr ⟨u, hp⟩)
  · intro back
    obtain ⟨hi, hc⟩ := zeroed back (voiceAfter_elapsedTime s.ops s.params i arg s.voice)
    refine ⟨hc.trans E.zero, rest, ?_⟩
    obtain rfl | rfl := hi
    · exact .inl ((HostEvent.presents_trigger e).mp he ▸ hp)
    · obtain ⟨u, rfl⟩ := (HostEvent.presents_envTrigger e).mp he
      exact .inr (.inr ⟨u, hp⟩)

/-! ### Runs of pulls -/

/-- The machine's run is its block's run, with the configuration kept. -/
theorem runSteps_eq_lift (k : Nat) (s : State) : runSteps k s = s.lift (runStepsOf s.block k s.toRunState) := by
  induction k generalizing s with
  | zero => rfl
  | succ k ih =>
    simp only [runSteps, Host.Core.run, runStepsOf, core, step_eq_lift]
    cases stepOf s.block s.toRunState with
    | next t => exact ih { s with toRunState := t }
    | fault f => rfl
    | refused r => rfl

section
variable {α : Type} [Zero α] [One α] [LT α] {B : Block α} {s : RunState α} {rest : List (HostEvent α)}

theorem stepOf_trig (hp : s.pending = trig :: rest) : stepOf B s = runTrigger B (s.accept rest) := by
  simp only [stepOf, hp, trig]
  rfl

theorem stepOf_pull (hp : s.pending = pull :: rest) : stepOf B s = runNextSample B (s.accept rest) := by
  simp only [stepOf, hp, pull]
  rfl

end

section
variable {α : Type} [Field α] [LinearOrder α] [IsStrictOrderedRing α] {B : Block α}

/-- Pulls of a playing, active voice in exact arithmetic: none of them stops it, and each advances both clocks by one
sample period. -/
theorem IsExact.runStepsOf_pulls (E : IsExact B.num) (n : Nat) (s : RunState α) (rest : List (HostEvent α))
    (hp : s.pending = List.replicate n pull ++ rest) (playing : s.voice.isPlaying = true)
    (active : s.voice.isActive = true) :
    ∃ t, runStepsOf B n s = .next t ∧ t.pending = rest ∧ t.playing = true ∧
      t.voice.currentTime = s.voice.currentTime + n * samplePeriod B.num B.params ∧
      t.voice.elapsedTime = s.voice.elapsedTime + n * samplePeriod B.num B.params := by
  induction n generalizing s with
  | zero => exact ⟨s, rfl, hp, playing, by simp, by simp⟩
  | succ n ih =>
    have hstep := (stepOf_pull (B := B) hp).trans (finish_of_finite _ E.finite _ _)
    have pulled := nextSample_of_playing B.num B.params s.voice playing
    obtain ⟨t, ht, tpending, tplaying, tcurrent, telapsed⟩ := ih
      (({ s.accept _ with voice := (nextSample B.num B.params s.voice).2 } : RunState α).respond _) rfl
      (by simp [pulled, playingSample_isPlaying, envIsFinished, playing, active])
      (by simp [pulled, active])
    refine ⟨t, by rw [runStepsOf, hstep]; exact ht, tpending, tplaying, ?_, ?_⟩
    · rw [tcurrent, RunState.respond_voice, pulled, playingSample_currentTime, E.add]
      push_cast
      ring
    · rw [telapsed, RunState.respond_voice, pulled, playingSample_elapsedTime, E.add]
      push_cast
      ring

/-- TRIGGER zeroes both clocks, and then the pulls are counted by the clocks (10_state.md R39 (d)). -/
theorem IsExact.runStepsOf_trig_pulls (E : IsExact B.num) (hP : 0 < B.params.sampleRate) (n : Nat) (s : RunState α)
    (rest : List (HostEvent α)) (hp : s.pending = trig :: (List.replicate n pull ++ rest)) :
    ∃ t, runStepsOf B (n + 1) s = .next t ∧ t.pending = rest ∧ t.playing = true ∧
      t.voice.currentTime = n * (1 / B.params.sampleRate) ∧ t.voice.elapsedTime = n * (1 / B.params.sampleRate) := by
  obtain ⟨t, ht, tpending, tplaying, tcurrent, telapsed⟩ := E.runStepsOf_pulls n
    (({ s.accept (List.replicate n pull ++ rest) with voice := voiceTrigger B.num s.voice } : RunState α).respond
      (B.num.const 0)) rest rfl rfl rfl
  refine ⟨t, by rw [runStepsOf, stepOf_trig hp]; exact ht, tpending, tplaying, ?_, ?_⟩
  · simpa [E.zero, E.samplePeriod_eq hP] using tcurrent
  · simpa [E.zero, E.samplePeriod_eq hP] using telapsed

end

/-- Settles O55: exact arithmetic and the reals both compute exactly, and the machine runs as its block. -/
theorem clocksCountThePulls : Obligations.ClocksCountThePulls := by
  constructor
  · intro n s rest hx hp
    obtain ⟨t, ht, hrun⟩ := (State.isExact hx).runStepsOf_trig_pulls (B := s.block) (sampleRate_pos s.cfg) n _ rest hp
    exact ⟨{ s with toRunState := t }, by rw [runSteps_eq_lift, ht]; rfl, hrun⟩
  · intro n P h s rest hp
    exact real_isExact.runStepsOf_trig_pulls (B := realBlock P h) h n s rest hp

/-! ### What a host can see (10_state.md R38, 43_voice_mixer.md R150) -/

section
variable {α : Type} (N : Numerics α) (P : Params α)

/-- Voices no host can tell apart, the part of SameView about S0 to S7 (SameView.sameRun): equal ones; sounding ones
that differ in the capture alone, which the next NOTE_OFF writes anew; and silent ones, of which no release may be refused
for a value that is not finite. -/
inductive SameVoice : VoiceState α → VoiceState α → Prop
  | same (v : VoiceState α) : SameVoice v v
  | sounding (v : VoiceState α) (level start : α) (active : v.isActive = true) :
      SameVoice v { v with releaseStartLevel := level, releaseStartTime := start }
  | silent (v w : VoiceState α) (stopped : v.isPlaying = false ∧ w.isPlaying = false)
      (released : (∀ x, N.finite x = true) ∨ (v.isActive = false ∧ w.isActive = false)) : SameVoice v w

/-- Runs no host can tell apart: the same events to come, by the ports alone, and such voices. -/
structure SameRun (s t : RunState α) : Prop where
  pending : s.pending = t.pending
  ports : s.portOnly
  voice : SameVoice N s.voice t.voice

/-- Outcomes no host can tell apart: the same response and such runs, or the same refusal. -/
inductive SameOutcome :
    Host.Outcome (RunState α) Fault Refusal → Host.Outcome (RunState α) Fault Refusal → Prop
  | next {s t : RunState α} (rsp : s.rsp = t.rsp) (run : SameRun N s t) : SameOutcome (.next s) (.next t)
  | refused (r : Refusal) : SameOutcome (.refused r) (.refused r)

/-! An active voice's sample, the values of its pull and its release do not read the capture. -/

theorem playingSample_of_active_capture (v : VoiceState α) (level start : α) (active : v.isActive = true) :
    playingSample N P { v with releaseStartLevel := level, releaseStartTime := start } =
      ((playingSample N P v).1,
        { (playingSample N P v).2 with releaseStartLevel := level, releaseStartTime := start }) := by
  simp [playingSample, envValue, stopIfFinished, envIsFinished, toneSine, clickSine, swpAdvance, envAdvance, active]

theorem nextSample_of_active_capture (v : VoiceState α) (level start : α) (active : v.isActive = true) :
    nextSample N P { v with releaseStartLevel := level, releaseStartTime := start } =
      ((nextSample N P v).1, { (nextSample N P v).2 with releaseStartLevel := level, releaseStartTime := start }) := by
  simp only [nextSample, playingSample_of_active_capture N P v level start active]
  split_ifs <;> rfl

theorem pullValues_of_active_capture (v : VoiceState α) (level start : α) (active : v.isActive = true) :
    pullValues N P { v with releaseStartLevel := level, releaseStartTime := start } = pullValues N P v := by
  simp only [pullValues, playingSample_of_active_capture N P v level start active, envValue, if_pos active]

theorem envRelease_of_active_capture (v : VoiceState α) (level start : α) (active : v.isActive = true) :
    envRelease N P { v with releaseStartLevel := level, releaseStartTime := start } = envRelease N P v := by
  simp only [envRelease, envValue, if_pos active]

theorem nextSample_isActive (v : VoiceState α) : (nextSample N P v).2.isActive = v.isActive := by
  obtain ⟨-, hv⟩ | ⟨-, hv⟩ := nextSample_cases N P v <;> simp [hv]

variable {N P} {s t : RunState α} {v w : VoiceState α}

/-! What each command makes of such voices. -/

theorem SameVoice.isPlaying_eq (h : SameVoice N v w) : v.isPlaying = w.isPlaying := by
  cases h with
  | same | sounding => rfl
  | silent _ stopped => exact stopped.1.trans stopped.2.symm

theorem SameVoice.voiceTrigger (h : SameVoice N v w) : SameVoice N (voiceTrigger N v) (voiceTrigger N w) := by
  cases h with
  | same => exact .same _
  | sounding level start => exact .sounding _ level start rfl
  | silent => exact .sounding _ w.releaseStartLevel w.releaseStartTime rfl

theorem SameVoice.nextSample (h : SameVoice N v w) :
    pullValues N P v = pullValues N P w ∧ (nextSample N P v).1 = (nextSample N P w).1 ∧
      SameVoice N (nextSample N P v).2 (nextSample N P w).2 := by
  cases h with
  | same => exact ⟨rfl, rfl, .same _⟩
  | sounding level start active =>
    rw [pullValues_of_active_capture N P v level start active, nextSample_of_active_capture N P v level start active]
    exact ⟨rfl, rfl, .sounding _ level start ((nextSample_isActive N P v).trans active)⟩
  | silent _ stopped released =>
    rw [nextSample_of_stopped N P v stopped.1, nextSample_of_stopped N P w stopped.2]
    exact ⟨by simp [pullValues, stopped], rfl, .silent v w stopped released⟩

theorem SameVoice.envRelease (h : SameVoice N v w) :
    ((∀ x, N.finite x = true) ∨ captured N P v = captured N P w) ∧
      SameVoice N (envRelease N P v) (envRelease N P w) := by
  cases h with
  | same => exact ⟨.inr rfl, .same _⟩
  | sounding level start active =>
    rw [envRelease_of_active_capture N P v level start active]
    exact ⟨.inr (by simp [captured, envValue, active]), .same _⟩
  | silent _ stopped released =>
    refine ⟨released.imp_right fun inactive => by simp [captured, inactive], .silent _ _ (by simpa using stopped) ?_⟩
    exact .inr (by simp)

/-! What the shared operations make of such runs. -/

theorem SameRun.accept {e : HostEvent α} {rest : List (HostEvent α)} (h : SameRun N s t) (hp : s.pending = e :: rest) :
    SameRun N (s.accept rest) (t.accept rest) :=
  ⟨rfl, fun e he => h.ports e (by rw [hp]; exact .tail _ he), h.voice⟩

theorem SameRun.respond (h : SameRun N s t) (hv : SameVoice N v w) (d : α) :
    SameOutcome N (.next ({ s with voice := v }.respond d)) (.next ({ t with voice := w }.respond d)) :=
  .next rfl ⟨h.pending, h.ports, hv⟩

/-- With the same values, or with every value finite, both operations end or both are refused. -/
theorem SameOutcome.finish {vs ws : List α} (h : SameOutcome N (.next s) (.next t))
    (values : (∀ x, N.finite x = true) ∨ vs = ws) : SameOutcome N (finish N vs s) (finish N ws t) := by
  obtain finite | rfl := values
  · rwa [finish_of_finite N finite, finish_of_finite N finite]
  · unfold Machine.finish
    split_ifs
    · exact h
    · exact .refused _

end

section
variable {α : Type} [Zero α] [One α] [LT α] (B : Block α) {s t : RunState α}

/-- The four commands tell such runs apart in nothing. -/
theorem SameRun.execOf (h : SameRun B.num s t) (i : Instr) (arg : α) (hi : i.port = .command) :
    SameOutcome B.num (execOf B i arg s) (execOf B i arg t) := by
  cases i
  case nop => exact h.respond h.voice _
  case trigger => exact h.respond h.voice.voiceTrigger _
  case nextSample =>
    obtain ⟨values, out, hv⟩ := h.voice.nextSample (P := B.params)
    have responses := h.respond hv (nextSample B.num B.params s.voice).1
    rw [out] at responses
    rw [Machine.execOf, Machine.execOf, runNextSample, runNextSample, out]
    exact responses.finish (.inr values)
  case noteOff =>
    obtain ⟨values, hv⟩ := h.voice.envRelease (P := B.params)
    exact (h.respond hv _).finish values
  all_goals cases hi

/-- SameRun is a bisimulation: a step from such runs gives outcomes that no host can tell apart. -/
theorem SameRun.stepOf (h : SameRun B.num s t) : SameOutcome B.num (stepOf B s) (stepOf B t) := by
  unfold Machine.stepOf
  rw [← h.pending]
  cases hp : s.pending with
  | nil => exact .next rfl ⟨rfl, nofun, h.voice⟩
  | cons e rest =>
    have accepted := h.accept hp
    cases e with
    | idle => exact .next rfl accepted
    | rst => exact .next rfl ⟨rfl, accepted.ports, .same _⟩
    | command op =>
      cases hi : decodeCmd op with
      | none =>
        simp only [hi]
        exact .next rfl ⟨rfl, accepted.ports, accepted.voice⟩
      | some i =>
        simp only [hi]
        exact accepted.execOf B i _ (HostEvent.port_of_presents (presents_of_decodeCmd (α := α) op i hi) rfl)
    | unitOp op arg => exact absurd (h.ports (.unitOp op arg) (by simp [hp])) Bool.false_ne_true

end

/-- SameView says, field by field, that the machines' runs are such runs. -/
theorem SameView.sameRun {s t : State} (h : SameView s t) : SameRun s.ops s.toRunState t.toRunState := by
  refine ⟨h.pending, h.ports, ?_⟩
  have finite (hx : s.cfg.num = .exact) : ∀ x, s.ops.finite x = true := (State.isExact hx).finite
  cases playing : s.voice.isPlaying with
  | false => exact .silent _ _ ⟨playing, h.playing ▸ playing⟩ ((h.stopped playing).imp_left finite)
  | true =>
    have shown : t.voice = { s.voice with
        releaseStartLevel := t.voice.releaseStartLevel, releaseStartTime := t.voice.releaseStartTime } := by
      simp only [h.tone playing, h.click playing, h.current playing, h.elapsed playing, h.active playing, h.playing]
    cases active : s.voice.isActive with
    | true =>
      rw [shown]
      exact .sounding _ _ _ active
    | false =>
      rw [shown, ← h.level playing active, ← h.start playing active]
      exact .same _

/-- Such runs of one configuration are observed alike: the bisimulation, step by step. -/
theorem observations_of_sameRun (k : Nat) (s t : State) (cfg : s.cfg = t.cfg)
    (h : SameRun s.ops s.toRunState t.toRunState) : observations k s = observations k t := by
  induction k generalizing s t with
  | zero => rfl
  | succ k ih =>
    have same := SameRun.stepOf s.block h
    rw [show stepOf s.block t.toRunState = stepOf t.block t.toRunState by rw [State.block, cfg]] at same
    simp only [observations, step_eq_lift]
    generalize stepOf s.block s.toRunState = o, stepOf t.block t.toRunState = o' at same ⊢
    cases same with
    | next rsp run =>
      simp only [State.lift, RunState.playing, rsp, run.voice.isPlaying_eq]
      exact congrArg _ (ih _ _ cfg run)
    | refused r => rfl

/-- Settles O57: SameView is the bisimulation SameRun written out for the machine. -/
theorem sameViewGivesTheSameObservations : Obligations.SameViewGivesTheSameObservations :=
  fun k s t h => observations_of_sameRun k s t h.cfg h.sameRun

/-! ### The state after reset (10_state.md R38) -/

/-- `0 * 1 = 0` in every format (log 12). -/
theorem numerics_zero_mul_one (f : NumFormat) : (numerics f).mul 0 1 = 0 := by
  cases f with
  | exact => exact zero_mul 1
  | implementation k => simp [numerics, implMul, implFinite]

/-- The captured level 0 releases as 0: while the release lasts its time is positive, and the level is scaled by 1. -/
theorem envValue_atReset (c : Configuration) :
    envValue (numerics c.num) c.params (VoiceState.atReset 0) = 0 := by
  have L := numerics_lawful c.num
  have hR : (numerics c.num).finite c.params.releaseTime = true := params_finite c _ (by simp [Params.toList])
  simp only [envValue, envValueRelease, VoiceState.atReset, Bool.false_eq_true, if_false, L.sub_zero, L.const_zero,
    L.const_one]
  split_ifs with lasts
  · rw [L.zero_div _ (L.nan_of_finite _ hR) lasts, L.sub_zero, numerics_zero_mul_one]
  · rfl

theorem envIsFinished_atReset (c : Configuration) :
    envIsFinished (numerics c.num) c.params (VoiceState.atReset 0) = decide (c.params.releaseTime ≤ 0) := by
  have hR : (numerics c.num).finite c.params.releaseTime = true := params_finite c _ (by simp [Params.toList])
  simp [envIsFinished, (numerics_lawful c.num).sub_zero, numerics_ge _ _ _ (numerics_finite_zero _) hR]

/-- Settles O41: the envelope's value and its finished signal on the reset values. -/
theorem resetStateIsZero : Obligations.ResetStateIsZero := by
  intro cfg s
  have value : envValue s.ops s.params s.voice = 0 := envValue_atReset cfg
  have finished : envIsFinished s.ops s.params s.voice = decide (cfg.params.releaseTime ≤ 0) :=
    envIsFinished_atReset cfg
  have flag (b : Bool) (hb : decide (cfg.params.releaseTime ≤ 0) = b) :
      exec .envFinished s = .next { s with bus := some (.flag b) } := by
    rw [← hb, ← finished]
    rfl
  refine ⟨rfl, rfl, ?_, fun h => flag false (by simpa using h), fun h => flag true (by simpa using h)⟩
  have answers : runEnvValue s.block s.toRunState = .next (s.toRunState.answer (.num 0)) := by
    simp [runEnvValue, value, finish]
  exact congrArg s.lift answers

/-- Settles O51: every element is the number 0, which is finite and within every bound. -/
theorem theInvariantsHoldAtReset : Obligations.TheInvariantsHoldAtReset := by
  refine ⟨fun cfg es => ⟨fun ports => ?_, ?_, fun hx sensible => ?_⟩, voiceBounds_atReset⟩
  · exact ⟨ports, rfl, fun _ => rfl⟩
  · exact (finiteValues_iff _).mpr ⟨.atReset (numerics_finite_zero _), nofun, nofun⟩
  · exact ⟨hx, sensible, voiceBounds_atReset⟩

end Sys2Proof.Machine

/-! ## The memory statement (20_memory.md): a second TRIGGER finds nothing left to change -/

namespace Sys2Proof.Machine

/-- What TRIGGER writes does not read the voice, and S4 and S5 it keeps (43_voice_mixer.md R142). -/
@[simp] theorem voiceTrigger_voiceTrigger {α : Type} (N : Numerics α) (v : VoiceState α) :
    voiceTrigger N (voiceTrigger N v) = voiceTrigger N v := rfl

/-- TRIGGER on the machine always answers, with 0, and writes the voice and the response alone (43_voice_mixer.md
R142). -/
theorem exec_trigger (s : State) :
    exec .trigger s = .next { s with voice := voiceTrigger s.ops s.voice, rsp := some (.data 0) } := by
  rw [← numerics_const_zero s.cfg.num]
  rfl

/-- Settles O24: the second TRIGGER rewrites the voice and the response with what the first one left there. -/
theorem triggerIsIdempotent : Obligations.TriggerIsIdempotent := by
  intro s
  refine ⟨_, exec_trigger s, ?_⟩
  rw [exec_trigger, voiceTrigger_voiceTrigger]

end Sys2Proof.Machine

/-! ## The encoding statements (30_encoding.md): decoding and encoding agree, what a step makes of the next word, and
which operation writes which state element -/

namespace Sys2Proof

/-! ### Every operation and its word -/

/-- The operand that an operation carries already (30_encoding.md R53). -/
theorem Instr.withOperand_eq_self_iff (x : Number) (i : Instr) :
    i.withOperand x = i ↔ ∀ f, i = .toneSine f ∨ i = .clickSine f → f = x := by
  cases i <;> simp [Instr.withOperand, eq_comm]

@[simp] theorem Instr.withOperand_withOperand (x : Number) (i : Instr) :
    (i.withOperand x).withOperand x = i.withOperand x := by
  cases i <;> rfl

/-- The word does not hold the operand (30_encoding.md R53). -/
@[simp] theorem opWord_withOperand (x : Number) (i : Instr) : opWord (i.withOperand x) = opWord i := by
  cases i <;> rfl

/-- The opcode map, row by row (30_encoding.md R52). -/
@[simp] theorem decode_encode (i : Instr) : decode (encode i) = .ok i := by
  cases i
  case toneSine | clickSine =>
    simp [decode, encode, opWord, operand, unitField, uopField, decodeUnitField, decodeUop, decodeTone, decodeClick]
  all_goals rfl

/-- An operation's word beside any operand: the operand fills the frequency in. -/
theorem decode_opWord (i : Instr) (x : Number) : decode ⟨opWord i, x⟩ = .ok (i.withOperand x) := by
  calc decode ⟨opWord i, x⟩
    _ = (decode (encode i)).map (Instr.withOperand x) := decode_withOperand (opWord i) x (operand i)
    _ = .ok (i.withOperand x) := by rw [decode_encode]; rfl

theorem decodeCmd_opWord (i : Instr) (h : i.port = .command) : decodeCmd (opWord i) = some i := by
  cases i
  case nop | trigger | nextSample | noteOff => rfl
  all_goals cases h

theorem decodeUnitOp_encode (i : Instr) (h : i.port = .unitBus) : decodeUnitOp (encode i) = .ok i := by
  simp [decodeUnitOp, h]

/-- A word and an operand decode to an operation exactly when the word is the operation's and the operation carries that
operand, if it has one. -/
theorem decode_eq_ok_iff (p : Packet) (i : Instr) :
    decode p = .ok i ↔ opWord i = p.op ∧ i.withOperand p.arg = i := by
  obtain ⟨op, x⟩ := p
  constructor
  · intro h
    rw [decode_withOperand op x 0] at h
    cases hj : decode ⟨op, 0⟩ with
    | error e => rw [hj] at h; cases h
    | ok j =>
      rw [hj] at h
      cases h
      exact ⟨(opWord_withOperand x j).trans (Machine.opWord_of_decode op j hj), j.withOperand_withOperand x⟩
  · rintro ⟨rfl, carried⟩
    rw [decode_opWord, carried]

/-- Settles O32, from the opcode map and the port that carries the operation. -/
theorem decodeOfEncodeIsTheOperation : Obligations.DecodeOfEncodeIsTheOperation := by
  intro i _
  exact ⟨decode_encode i, fun h => decodeCmd_opWord i (of_decide_eq_true h),
    fun h => decodeUnitOp_encode i (of_decide_eq_true h)⟩

/-- Settles O33: the word names the operation, and the operand only fills its frequency in. -/
theorem decodeAcceptsOnlyTheOperationsWord : Obligations.DecodeAcceptsOnlyTheOperationsWord := by
  intro p i
  rw [decode_eq_ok_iff, Instr.withOperand_eq_self_iff]

/-- Settles O34: the six defined words are those of `encode`. -/
theorem tableWordsDecode : Obligations.TableWordsDecode :=
  ⟨decode_encode .nextSample, decode_encode .noteOff, decode_encode (.toneSine 150), decode_encode (.clickSine (-3)),
    decode_encode .envRelease, decode_encode .swpTime, rfl, rfl⟩

/-! ### The words of each port -/

/-- Settles O35, along the comparisons of `decodeCmd`: a word that differs from 0, 1, 2 and 3 is 4 or more. -/
theorem commandPortAcceptsFourWords : Obligations.CommandPortAcceptsFourWords := by
  intro op
  unfold decodeCmd
  split_ifs with nop trigger nextSample noteOff
  · exact .inl ⟨nop, rfl⟩
  · exact .inr (.inl ⟨trigger, rfl⟩)
  · exact .inr (.inr (.inl ⟨nextSample, rfl⟩))
  · exact .inr (.inr (.inr (.inl ⟨noteOff, rfl⟩)))
  · exact .inr (.inr (.inr (.inr ⟨by bv_omega, rfl⟩)))

/-- The 60 illegal words of the command port (30_encoding.md R60). -/
theorem decodeCmd_eq_none (op : OpWord) (h : 4 ≤ op.toNat) : decodeCmd op = none := by
  obtain ⟨rfl, -⟩ | ⟨rfl, -⟩ | ⟨rfl, -⟩ | ⟨rfl, -⟩ | ⟨-, illegal⟩ := commandPortAcceptsFourWords op
  case inr.inr.inr.inr => exact illegal
  all_goals exact absurd h (by decide)

/-- The reserved words: the undefined `uop` values of each unit, and the undefined units (30_encoding.md R60, R61). -/
def Reserved (op : OpWord) : Prop :=
  let unit := (unitField op).toNat
  let uop := (uopField op).toNat
  (unit = 1 ∨ unit = 2) ∧ 2 ≤ uop ∨ unit = 3 ∧ 5 ≤ uop ∨ unit = 4 ∧ 4 ≤ uop ∨ 5 ≤ unit ∨ unit = 0 ∧ 4 ≤ uop

theorem not_reserved_opWord (i : Instr) : ¬ Reserved (opWord i) := by
  cases i
  case toneSine | clickSine => simp [Reserved, opWord, unitField, uopField]
  all_goals
    unfold Reserved
    decide

/-- A word that decodes is an operation's word, and no such word is reserved. -/
theorem decodeUnitOp_of_reserved (op : OpWord) (arg : Number) (h : Reserved op) :
    ∃ e, decodeUnitOp ⟨op, arg⟩ = .error (.reserved e) := by
  cases hd : decode ⟨op, arg⟩ with
  | error e => exact ⟨e, by simp only [decodeUnitOp, hd]⟩
  | ok i =>
    obtain ⟨rfl, -⟩ := (decode_eq_ok_iff _ i).mp hd
    exact absurd h (not_reserved_opWord i)

/-- The unit bus does not carry a command's word (30_encoding.md R59). -/
theorem decodeUnitOp_of_command (i : Instr) (arg : Number) (h : i.port = .command) :
    decodeUnitOp ⟨opWord i, arg⟩ = .error .voiceWord := by
  simp [decodeUnitOp, decode_opWord, h]

/-- VOICE's four words are the commands' (30_encoding.md R60). -/
theorem decodeUnitOp_of_voice (op : OpWord) (arg : Number) (unit : (unitField op).toNat = 0)
    (uop : (uopField op).toNat < 4) : decodeUnitOp ⟨op, arg⟩ = .error .voiceWord := by
  have words : ∀ op : OpWord, (unitField op).toNat = 0 → (uopField op).toNat < 4 →
      op = opWord .nop ∨ op = opWord .trigger ∨ op = opWord .nextSample ∨ op = opWord .noteOff := by decide
  obtain rfl | rfl | rfl | rfl := words op unit uop <;> exact decodeUnitOp_of_command _ arg rfl

end Sys2Proof

namespace Sys2Proof.Machine

/-! ### What a step makes of the host's next event -/

/-- The ports of the step before are gone when the next event is taken, so no step reads them (30_encoding.md R56). -/
theorem step_with_ports (s : State) (rsp : Option (Response Number)) (bus : Option (UnitResult Number)) :
    step { s with rsp := rsp, bus := bus } = step s := rfl

theorem step_of_unitOp_error (s : State) (op : OpWord) (arg : Number) (rest : List (HostEvent Number))
    (e : UnitBusError) (hp : s.pending = .unitOp op arg :: rest) (he : decodeUnitOp ⟨op, arg⟩ = .error e) :
    step s = .refused (unitBusRefusal op e) := by
  simp only [step, hp, he]

/-- Settles O36: the arm of `step` for a word that `decodeCmd` accepts. -/
theorem stepRunsTheDecodedCommand : Obligations.StepRunsTheDecodedCommand := by
  intro s op rest i hp hi
  simp only [step, hp, hi]
  rfl

/-- Settles O37: the arm of `step` for a word that the unit bus carries. -/
theorem stepRunsTheDecodedUnitOperation : Obligations.StepRunsTheDecodedUnitOperation := by
  intro s op arg rest i hp hi
  simp only [step, hp, hi]
  rfl

/-- Settles O38: the word is no command, and the step after does not read the error response. -/
theorem illegalWordRaisesCmdError : Obligations.IllegalWordRaisesCmdError := by
  intro s op rest hp illegal
  have answered : step s = .next ((s.onRun (.accept rest)).onRun (.takeCmdError op)) := by
    simp only [step, hp, decodeCmd_eq_none op illegal]
  exact ⟨_, answered, rfl, rfl, rfl, rfl, rfl,
    step_with_ports { s with pending := rest, freeCount := s.freeCount + 1 } _ _⟩

/-- Settles O39: the refusal names the word by how the unit bus rejects it. -/
theorem unitBusRefusesReservedWords : Obligations.UnitBusRefusesReservedWords := by
  intro s op arg rest hp unit uop
  constructor
  · intro reserved
    obtain ⟨e, he⟩ := decodeUnitOp_of_reserved op arg reserved
    exact step_of_unitOp_error s op arg rest _ hp he
  · rintro ⟨voice, defined⟩
    exact step_of_unitOp_error s op arg rest _ hp (decodeUnitOp_of_voice op arg voice defined)

/-- Settles O42: both arms of `step` only take the event, if there is one. -/
theorem nothingHappensWithoutACommand : Obligations.NothingHappensWithoutACommand := by
  rintro s rest (⟨hp, rfl⟩ | hp)
  · simp only [step, hp]
    rfl
  · simp only [step, hp]
    rfl

/-- Settles O60: each line expands to pulls or to a trigger, which are commands. -/
theorem pseudoInstructionsExpand : Obligations.PseudoInstructionsExpand := by
  refine ⟨fun k => ?_, rfl⟩
  calc scriptEvents [.nextSampleTimes k]
    _ = (List.replicate k Instr.nextSample).map eventOf := by simp [scriptEvents, expandLine]
    _ = List.replicate k (.command 0x02#6) := List.map_replicate

/-! ### Which operation writes which state element (30_encoding.md R52) -/

/-- A pull does not write the capture, S4 and S5 (43_voice_mixer.md R144). -/
theorem nextSample_capture {α : Type} (N : Numerics α) (P : Params α) (v : VoiceState α) :
    (nextSample N P v).2.releaseStartLevel = v.releaseStartLevel ∧
    (nextSample N P v).2.releaseStartTime = v.releaseStartTime := by
  obtain ⟨-, hv⟩ | ⟨-, hv⟩ := nextSample_cases N P v <;> simp [hv]

theorem exec_voice (i : Instr) (s t : State) (h : exec i s = .next t) :
    t.voice = voiceAfter s.ops s.params i (operand i) s.voice := by
  rw [exec_eq_lift, State.lift_next] at h
  exact execOf_voice s.block i (operand i) _ _ h.1

/-- Settles O31: what each operation makes of the voice (`voiceAfter`), and the part of State that none writes. -/
theorem onlyListedOperationsWriteAnElement : Obligations.OnlyListedOperationsWriteAnElement := by
  intro i s t h
  have outer := exec_outer i s t h
  rw [exec_voice i s t h]
  cases i
  case nextSample => simp [voiceAfter, outer, nextSample_capture, nextSample_isActive]
  all_goals simp [voiceAfter, outer]

end Sys2Proof.Machine

/-! ## The oscillator statements (40_oscillator.md): the sample of the phase before the advance, one conditional
subtraction, and the reset to phase 0 -/

namespace Sys2Proof.Machine

/-! ### What the four operations answer on the machine -/

/-- An operation that must have finite values, on the machine: finish_next with the configuration kept. -/
theorem lift_finish_next (s t : State) (values : List Number) (u : RunState Number) :
    s.lift (finish s.ops values u) = .next t ↔
      (∀ x ∈ values, s.ops.finite x = true) ∧ t = { s with toRunState := u } := by
  rw [State.lift_next, finish_next, and_assoc]
  refine and_congr_right fun _ => ⟨?_, ?_⟩
  · rintro ⟨rfl, hcfg⟩
    rw [← hcfg]
  · rintro rfl
    exact ⟨rfl, rfl⟩

theorem exec_toneSine_next (f : Number) (s t : State) :
    let r := toneSine s.ops s.params f s.voice
    exec (.toneSine f) s = .next t ↔
      (∀ x ∈ [f, r.1, r.2.tonePhase], s.ops.finite x = true) ∧
      t = { s with voice := r.2, bus := some (.num r.1) } :=
  lift_finish_next s t _ _

theorem exec_clickSine_next (f : Number) (s t : State) :
    let r := clickSine s.ops s.params f s.voice
    exec (.clickSine f) s = .next t ↔
      (∀ x ∈ [f, r.1, r.2.clickPhase], s.ops.finite x = true) ∧
      t = { s with voice := r.2, bus := some (.num r.1) } :=
  lift_finish_next s t _ _

/-- TONE.RESET always answers, in every format (40_oscillator.md R76). -/
theorem exec_toneReset (s : State) :
    exec .toneReset s = .next { s with voice := { s.voice with tonePhase := 0 }, bus := some .done } := by
  rw [← numerics_const_zero s.cfg.num]
  rfl

/-- CLICK.RESET always answers, in every format (40_oscillator.md R77). -/
theorem exec_clickReset (s : State) :
    exec .clickReset s = .next { s with voice := { s.voice with clickPhase := 0 }, bus := some .done } := by
  rw [← numerics_const_zero s.cfg.num]
  rfl

/-- Settles O1: the values that TONE.SINE must have finite are the frequency, the sample and the new phase. -/
theorem toneSineReadsThenAdvances : Obligations.ToneSineReadsThenAdvances :=
  fun f s => ⟨rfl, fun finite => (exec_toneSine_next f s _).mpr ⟨finite, rfl⟩⟩

/-- Settles O2: the values that CLICK.SINE must have finite are the frequency, the sample and the new phase. -/
theorem clickSineReadsThenAdvances : Obligations.ClickSineReadsThenAdvances :=
  fun f s => ⟨rfl, fun finite => (exec_clickSine_next f s _).mpr ⟨finite, rfl⟩⟩

/-- Settles O3: neither RESET reads the voice or has a value to refuse. -/
theorem oscillatorResetsZeroTheirPhase : Obligations.OscillatorResetsZeroTheirPhase :=
  fun s => ⟨⟨rfl, exec_toneReset s⟩, ⟨rfl, exec_clickReset s⟩⟩

/-! ### The sample at phase 0 -/

/-- `sin(TWO_PI * 0) = 0`, by `N_mul0` and `N_sin0`, as `TWO_PI` is finite (00_scope.md R11, log 16). -/
theorem oscSine_sample_of_phase_zero (c : Configuration) (f : Number) :
    (oscSine (numerics c.num) c.params 0 f).1 = 0 := by
  have L := numerics_lawful c.num
  obtain ⟨twoPi, -, -⟩ := constants_finite c
  simp only [oscSine, L.mul_zero _ twoPi, L.sin_zero]

/-- Settles O6: after its RESET an oscillator stands at phase 0, and the sample there does not read the frequency. -/
theorem firstSineAfterResetIsZero : Obligations.FirstSineAfterResetIsZero := by
  intro f s N p1 phase
  have sample := oscSine_sample_of_phase_zero s.cfg f
  have values (hf : N.finite f = true) (hp : N.finite phase = true) :
      ∀ x ∈ [f, (oscSine N s.params 0 f).1, phase], N.finite x = true := by
    simp [hf, hp, sample, N]
  constructor
  · refine ⟨_, exec_toneReset s, fun hf hp => ?_, fun u hu => ?_⟩
    · exact ⟨_, (exec_toneSine_next f _ _).mpr ⟨values hf hp, rfl⟩⟩
    · obtain ⟨-, rfl⟩ := (exec_toneSine_next f _ u).mp hu
      exact congrArg (fun x => some (UnitResult.num x)) sample
  · refine ⟨_, exec_clickReset s, fun hf hp => ?_, fun u hu => ?_⟩
    · exact ⟨_, (exec_clickSine_next f _ _).mpr ⟨values hf hp, rfl⟩⟩
    · obtain ⟨-, rfl⟩ := (exec_clickSine_next f _ u).mp hu
      exact congrArg (fun x => some (UnitResult.num x)) sample

/-! ### The wrap in exact arithmetic, over any ordered field (40_oscillator.md R72) -/

section
variable {α : Type} [Field α] [LinearOrder α]

/-- The one conditional subtraction of `osc_sine`, as exact arithmetic computes it (IsExact.oscSine_phase). -/
def wrapOnce (x : α) : α := if 1 ≤ x then x - 1 else x

theorem wrapOnce_of_lt {x : α} (h : x < 1) : wrapOnce x = x := if_neg h.not_ge

theorem wrapOnce_of_ge {x : α} (h : 1 ≤ x) : wrapOnce x = x - 1 := if_pos h

theorem IsExact.oscSine_phase {N : Numerics α} (E : IsExact N) {P : Params α} (hP : 0 < P.sampleRate) (phase f : α) :
    (oscSine N P phase f).2 = wrapOnce (phase + f / P.sampleRate) := by
  simp only [oscSine, wrapOnce, E.add, E.sub, E.ge, E.one, E.div _ _ hP.ne']

/-- The range law (40_oscillator.md R78): the sum is below 2, so one subtraction suffices. -/
theorem IsExact.oscSine_phase_mem_Ico [IsStrictOrderedRing α] {N : Numerics α} (E : IsExact N) {P : Params α}
    (hP : 0 < P.sampleRate) {phase f : α} (hphase : phase ∈ Set.Ico 0 1) (hinc : f / P.sampleRate ∈ Set.Icc 0 1) :
    (oscSine N P phase f).2 ∈ Set.Ico 0 1 := by
  rw [E.oscSine_phase hP]
  obtain ⟨phase_nonneg, phase_lt⟩ := hphase
  obtain ⟨inc_nonneg, inc_le⟩ := hinc
  obtain below | reached := lt_or_ge (phase + f / P.sampleRate) 1
  · rw [wrapOnce_of_lt below]
    exact ⟨add_nonneg phase_nonneg inc_nonneg, below⟩
  · rw [wrapOnce_of_ge reached]
    constructor <;> linarith

end

/-- Settles O4: the range law for the phase that each SINE leaves; in exact arithmetic both answer. -/
theorem phaseStaysInUnitIntervalForUnitIncrements : Obligations.PhaseStaysInUnitIntervalForUnitIncrements := by
  intro f s format inc_nonneg inc_le
  have E := State.isExact format
  have range (phase : Number) (h0 : 0 ≤ phase) (h1 : phase < 1) :=
    E.oscSine_phase_mem_Ico (sampleRate_pos s.cfg) ⟨h0, h1⟩ ⟨inc_nonneg, inc_le⟩
  constructor
  · intro h0 h1
    exact ⟨_, (exec_toneSine_next f s _).mpr ⟨fun x _ => E.finite x, rfl⟩, range _ h0 h1⟩
  · intro h0 h1
    exact ⟨_, (exec_clickSine_next f s _).mpr ⟨fun x _ => E.finite x, rfl⟩, range _ h0 h1⟩

/-- Settles O5: a sum below 1 stays, and 1 is taken once from any other. -/
theorem phaseWrapIsOneSubtraction : Obligations.PhaseWrapIsOneSubtraction := by
  intro f s format sum
  have E := State.isExact format
  have phase : (toneSine s.ops s.params f s.voice).2.tonePhase = wrapOnce sum :=
    E.oscSine_phase (sampleRate_pos s.cfg) _ f
  refine ⟨_, (exec_toneSine_next f s _).mpr ⟨fun x _ => E.finite x, rfl⟩, ?_⟩
  simp only [phase]
  refine ⟨fun negative => ?_, fun overshoot => ?_, fun one => ?_, fun still below => ?_⟩
  · rw [wrapOnce_of_lt (negative.trans one_pos)]
    exact ⟨rfl, negative⟩
  · rw [wrapOnce_of_ge (one_le_two.trans overshoot)]
    exact ⟨rfl, by linarith⟩
  · rw [wrapOnce_of_ge one.ge, one, sub_self]
  · have unmoved : sum = s.voice.tonePhase := by simp [sum, still]
    rw [unmoved, wrapOnce_of_lt below]

end Sys2Proof.Machine

/-! ## The envelope statements (41_adsr_envelope.md): the value of the stage, the capture, and the guard of each
division -/

namespace Sys2Proof.Machine

/-! ### The value and the flag, over any number type -/

section
variable {α : Type} (N : Numerics α) (P : Params α)

theorem envValue_of_active (v : VoiceState α) (h : v.isActive = true) :
    envValue N P v = envValueActive N P v.elapsedTime := if_pos h

theorem envValue_of_inactive (v : VoiceState α) (h : v.isActive = false) :
    envValue N P v = envValueRelease N P v.releaseStartLevel v.releaseStartTime v.elapsedTime := by
  simp [envValue, h]

theorem captured_of_inactive (v : VoiceState α) (h : v.isActive = false) : captured N P v = [] := by
  simp [captured, h]

/-- The release is over when its time is (41_adsr_envelope.md R93). -/
theorem envValueRelease_of_not_lt (level start t : α) (h : N.lt (N.sub t start) P.releaseTime = false) :
    envValueRelease N P level start t = N.const 0 := by
  simp [envValueRelease, h]

/-- Idle is the stage after the release (41_adsr_envelope.md R91). -/
theorem stage_eq_idle_iff (v : VoiceState α) :
    stage N P v = .idle ↔
      v.isActive = false ∧ N.lt (N.sub v.elapsedTime v.releaseStartTime) P.releaseTime = false := by
  unfold stage
  split_ifs <;> simp_all

end

/-! ### What the operations answer on the machine -/

theorem exec_envValue (s : State) {a : Number} (value : envValue s.ops s.params s.voice = a)
    (finite : s.ops.finite a = true) : exec .envValue s = .next { s with bus := some (.num a) } := by
  subst value
  exact (lift_finish_next s _ _ _).mpr ⟨by simpa using finite, rfl⟩

theorem exec_envAdvance (s : State)
    (finite : s.ops.finite (s.ops.add s.voice.elapsedTime (samplePeriod s.ops s.params)) = true) :
    exec .envAdvance s = .next { s with voice := envAdvance s.ops s.params s.voice, bus := some .done } :=
  (lift_finish_next s _ _ _).mpr ⟨by simpa using finite, rfl⟩

/-- ENV.TRIGGER always answers, in every format (41_adsr_envelope.md R96). -/
theorem exec_envTrigger (s : State) :
    exec .envTrigger s =
      .next { s with voice := { s.voice with elapsedTime := 0, isActive := true }, bus := some .done } := by
  rw [← numerics_const_zero s.cfg.num]
  rfl

theorem exec_envRelease (s : State) (finite : ∀ x ∈ captured s.ops s.params s.voice, s.ops.finite x = true) :
    exec .envRelease s = .next { s with voice := envRelease s.ops s.params s.voice, bus := some .done } :=
  (lift_finish_next s _ _ _).mpr ⟨finite, rfl⟩

/-- NOTE_OFF is ENV.RELEASE answered on the response port (43_voice_mixer.md R146). -/
theorem exec_noteOff (s : State) (finite : ∀ x ∈ captured s.ops s.params s.voice, s.ops.finite x = true) :
    exec .noteOff s = .next { s with voice := envRelease s.ops s.params s.voice, rsp := some (.data 0) } := by
  rw [← numerics_const_zero s.cfg.num]
  exact (lift_finish_next s _ _ _).mpr ⟨finite, rfl⟩

/-- ENV.FINISHED always answers, in every format (41_adsr_envelope.md R98). -/
theorem exec_envFinished (s : State) :
    exec .envFinished s = .next { s with bus := some (.flag (envIsFinished s.ops s.params s.voice)) } := rfl

/-! ### Every format -/

/-- The attack starts at 0: `0 / A = 0` by `N_div0` (41_adsr_envelope.md R96). -/
theorem envValueActive_zero_of_attack (c : Configuration) (h : 0 < c.params.attackTime) :
    envValueActive (numerics c.num) c.params 0 = 0 := by
  have hA : (numerics c.num).finite c.params.attackTime = true := params_finite c _ (by simp [Params.toList])
  have attack : (numerics c.num).lt 0 c.params.attackTime = true := by
    simpa [numerics_lt _ _ _ (numerics_finite_zero _) hA] using h
  rw [envValueActive, if_pos attack, (numerics_lawful c.num).zero_div_of_finite _ hA h]

theorem releaseTime_finite (c : Configuration) : (numerics c.num).finite c.params.releaseTime = true :=
  params_finite c _ (by simp [Params.toList])

/-- `ge` of the finished flag is the complement of `lt` of the stage, where the time is no NaN (`N_cmp`). -/
theorem envIsFinished_iff_idle (c : Configuration) (v : VoiceState Number)
    (h : (numerics c.num).nan ((numerics c.num).sub v.elapsedTime v.releaseStartTime) = false) :
    envIsFinished (numerics c.num) c.params v = true ↔ stage (numerics c.num) c.params v = .idle := by
  have L := numerics_lawful c.num
  rw [stage_eq_idle_iff, envIsFinished, L.ge_not_lt _ _ h (L.nan_of_finite _ (releaseTime_finite c))]
  simp

/-- An idle envelope has the value 0 (41_adsr_envelope.md R98). -/
theorem envValue_of_idle (c : Configuration) (v : VoiceState Number)
    (h : stage (numerics c.num) c.params v = .idle) : envValue (numerics c.num) c.params v = 0 := by
  obtain ⟨inactive, ended⟩ := (stage_eq_idle_iff _ _ v).mp h
  rw [envValue_of_inactive _ _ v inactive, envValueRelease_of_not_lt _ _ _ _ _ ended, numerics_const_zero]

/-- No time has passed right after the capture (`N_sub_self`), so a release that lasts none has finished at once. -/
theorem envIsFinished_envRelease (c : Configuration) (v : VoiceState Number) (active : v.isActive = true)
    (hR : c.params.releaseTime ≤ 0) (finite : (numerics c.num).finite v.elapsedTime = true) :
    envIsFinished (numerics c.num) c.params (envRelease (numerics c.num) c.params v) = true := by
  have L := numerics_lawful c.num
  simp [envRelease_of_active _ _ v active, envIsFinished, L.sub_self _ finite,
    numerics_ge _ _ _ L.finite_zero (releaseTime_finite c), hR]

/-- Settles O7: the stated value is `envValue`, with the number 0 for the literal after the release. -/
theorem envValueReturnsTheStageValue : Obligations.EnvValueReturnsTheStageValue := by
  intro s N P t e value
  have stage_value : envValue N P s.voice = value := by
    simp only [envValue, envValueActive, envValueRelease, N, State.ops, numerics_const_zero]
    rfl
  exact ⟨rfl, exec_envValue s stage_value⟩

/-- Settles O8: the sum is the one value that ENV.ADVANCE must have finite. -/
theorem envAdvanceAddsOneSamplePeriod : Obligations.EnvAdvanceAddsOneSamplePeriod :=
  fun s => ⟨rfl, exec_envAdvance s⟩

/-- Settles O10: an active envelope captures the two values that must be finite, an inactive one captures none. -/
theorem envReleaseCapturesOnce : Obligations.EnvReleaseCapturesOnce := by
  intro s a
  refine ⟨rfl, fun active level_finite time_finite => ⟨exec_envValue s rfl level_finite, ?_⟩, fun inactive => ?_⟩
  · rw [exec_envRelease s (by simp [captured_of_active _ _ _ active, a, level_finite, time_finite]),
      envRelease_of_active _ _ _ active, ← envValue_of_active _ _ _ active]
  · rw [exec_envRelease s (by simp [captured_of_inactive _ _ _ inactive]), envRelease_of_inactive _ _ _ inactive]

/-- Settles O11: the flag is the stage Idle by `N_cmp`, and a capture leaves no time since the release began. -/
theorem envFinishedIsTheIdleStage : Obligations.EnvFinishedIsTheIdleStage := by
  intro s e finished
  have idle (number : s.ops.nan e = false) : finished = true ↔ stage s.ops s.params s.voice = .idle :=
    envIsFinished_iff_idle s.cfg s.voice number
  refine ⟨rfl, exec_envFinished s, idle, fun number done => ?_, fun active => ?_, ?_⟩
  · exact exec_envValue s (envValue_of_idle s.cfg s.voice ((idle number).mp done)) (numerics_finite_zero _)
  · simp [finished, active]
  · intro active hR time_finite level_finite
    refine ⟨_, exec_envRelease s (by simp [captured_of_active _ _ _ active, level_finite, time_finite]), ?_⟩
    rw [exec_envFinished]
    simp only [State.ops, State.params, envIsFinished_envRelease s.cfg s.voice active hR time_finite]

/-! ### Exact arithmetic, over any ordered field -/

section
variable {α : Type} [Field α] [LinearOrder α] {N : Numerics α} {P : Params α} {v : VoiceState α} {t : α}

theorem IsExact.envValueActive_of_sustain (E : IsExact N) (attacked : P.attackTime ≤ t)
    (decayed : P.attackTime + P.decayTime ≤ t) : envValueActive N P t = P.sustainLevel := by
  simp only [envValueActive, E.lt, E.add, if_neg attacked.not_gt, if_neg decayed.not_gt]

/-- The release starts from the level it captured: no time has passed, and the level is scaled by 1
(41_adsr_envelope.md R97). -/
theorem IsExact.envValue_envRelease (E : IsExact N) (active : v.isActive = true) (hR : 0 < P.releaseTime) :
    envValue N P (envRelease N P v) = envValue N P v := by
  rw [envValue_of_inactive N P _ (envRelease_isActive N P v), envRelease_of_active N P v active,
    envValue_of_active N P v active]
  simp [envValueRelease, E.lt, E.sub, E.mul, E.one, E.div _ _ hR.ne', hR]

variable [IsStrictOrderedRing α]

/-- The decay is reached only with a positive divisor (41_adsr_envelope.md R99). -/
theorem decayTime_pos_of_decay (started : P.attackTime ≤ t) (unfinished : t < P.attackTime + P.decayTime) :
    0 < P.decayTime :=
  pos_of_lt_add_right (started.trans_lt unfinished)

theorem IsExact.envValueActive_of_decay (E : IsExact N) (started : P.attackTime ≤ t)
    (unfinished : t < P.attackTime + P.decayTime) :
    envValueActive N P t = 1 - (1 - P.sustainLevel) * ((t - P.attackTime) / P.decayTime) := by
  simp only [envValueActive, E.lt, E.add, E.sub, E.mul, E.one, if_neg started.not_gt, if_pos unfinished,
    E.div _ _ (decayTime_pos_of_decay started unfinished).ne']

/-- The decay falls from 1 (41_adsr_envelope.md R96, R100). -/
theorem IsExact.envValueActive_attackTime (E : IsExact N) (hD : 0 < P.decayTime) :
    envValueActive N P P.attackTime = 1 := by
  simp [E.envValueActive_of_decay le_rfl (lt_add_of_pos_right _ hD)]

/-- The envelope lies in [0, 1] in every stage: a release scales its captured level by what is left of its time
(41_adsr_envelope.md R102). -/
theorem IsExact.envValue_mem (E : IsExact N) (hP : SensibleEnvelope P) (h : VoiceBounds v) :
    0 ≤ envValue N P v ∧ envValue N P v ≤ 1 := by
  cases active : v.isActive with
  | true =>
    rw [envValue_of_active N P v active]
    exact E.envValueActive_mem hP v.elapsedTime h.elapsed
  | false =>
    simp only [envValue_of_inactive N P v active, envValueRelease, E.lt, E.sub, E.mul, E.one, E.zero]
    split_ifs with lasts
    · have started : 0 ≤ v.elapsedTime - v.releaseStartTime := sub_nonneg.mpr (h.started active)
      have hR : 0 < P.releaseTime := started.trans_lt lasts
      have gone : 0 ≤ (v.elapsedTime - v.releaseStartTime) / P.releaseTime := div_nonneg started hR.le
      have gone_le : (v.elapsedTime - v.releaseStartTime) / P.releaseTime ≤ 1 := (div_le_one hR).mpr lasts.le
      have left : 0 ≤ 1 - (v.elapsedTime - v.releaseStartTime) / P.releaseTime := sub_nonneg.mpr gone_le
      rw [E.div _ _ hR.ne']
      exact ⟨mul_nonneg h.level_nonneg left, mul_le_one₀ h.level_le_one left (sub_le_self 1 gone)⟩
    · exact ⟨le_rfl, zero_le_one⟩

end

/-- Settles O9: ENV.VALUE after the trigger is the active value at time 0, in the attack, the decay or the sustain. -/
theorem envTriggerRestartsTheEnvelope : Obligations.EnvTriggerRestartsTheEnvelope := by
  intro s P
  refine ⟨rfl, _, rfl, exec_envTrigger s, exec_envTrigger _, fun hA => ?_, fun hx hA hD => ?_, fun hx hA hD => ?_⟩
  · exact exec_envValue _ (envValueActive_zero_of_attack s.cfg hA) (numerics_finite_zero _)
  · have E := State.isExact hx
    have value : envValueActive s.ops P 0 = 1 := hA ▸ E.envValueActive_attackTime hD
    exact exec_envValue _ value (E.finite _)
  · have E := State.isExact hx
    exact exec_envValue _ (E.envValueActive_of_sustain hA.le (by simp [P, hA, hD])) (E.finite _)

/-- Settles O52: in exact arithmetic ENV.VALUE answers, and the bounds of the state bound its value. -/
theorem envelopeValueIsWithinUnitInterval : Obligations.EnvelopeValueIsWithinUnitInterval := by
  intro s h
  have E := State.isExact h.exact
  exact ⟨_, exec_envValue s rfl (E.finite _), E.envValue_mem h.sensible h.voice⟩

/-- Settles O14: in exact arithmetic NOTE_OFF answers, and the release starts from what it captures. -/
theorem releaseStartsFromTheCapturedLevel : Obligations.ReleaseStartsFromTheCapturedLevel := by
  intro s hx active hR
  have E := State.isExact hx
  refine ⟨_, exec_noteOff s fun x _ => E.finite x, envRelease_isActive _ _ _, E.envValue_envRelease active hR, ?_⟩
  rw [envRelease_of_active _ _ _ active, envValue_of_active _ _ _ active]

/-! ### Continuity over the reals (41_adsr_envelope.md R100, R101) -/

/-- The arms of neighbouring stages have the same value where they meet: 1 after the attack, and the sustain level after
the decay. -/
theorem continuous_envValueActive (P : Params ℝ) (hA : 0 < P.attackTime) (hD : 0 < P.decayTime) :
    Continuous (envValueActive realNumerics P) := by
  have E := real_isExact
  have arms : envValueActive realNumerics P = fun t =>
      if P.attackTime ≤ t then
        if P.attackTime + P.decayTime ≤ t then P.sustainLevel
        else 1 - (1 - P.sustainLevel) * ((t - P.attackTime) / P.decayTime)
      else t / P.attackTime := by
    funext t
    simp only [envValueActive, E.lt, E.add, E.sub, E.mul, E.one, E.div _ _ hA.ne', E.div _ _ hD.ne', ← not_le,
      ite_not]
  rw [arms]
  refine .if_le (.if_le continuous_const (by fun_prop) continuous_const continuous_id ?_) (by fun_prop)
    continuous_const continuous_id ?_
  · rintro t rfl
    simp [hD.ne']
  · rintro t rfl
    simp [hD, hA.ne']

/-- Settles O13: the values at the boundaries are those of exact arithmetic, and the value is continuous everywhere. -/
theorem envelopeIsContinuousAtItsBoundaries : Obligations.EnvelopeIsContinuousAtItsBoundaries := by
  intro P hA hD
  have continuous := continuous_envValueActive P hA hD
  refine ⟨real_isExact.envValueActive_attackTime hD, continuous.continuousAt, fun t decayed => ?_,
    continuous.continuousAt⟩
  exact real_isExact.envValueActive_of_sustain ((lt_add_of_pos_right _ hD).le.trans decayed) decayed

end Sys2Proof.Machine

namespace Sys2Proof

/-! ### No division by a number that is not positive (41_adsr_envelope.md R99, 42_sweep_envelope.md R126) -/

/-- The same arithmetic with another quotient. -/
def Numerics.withDiv {α : Type} (N : Numerics α) (d : α → α → α) : Numerics α := { N with div := d }

end Sys2Proof

namespace Sys2Proof.Machine

section
variable {α : Type} [Field α] [LinearOrder α] {N : Numerics α} {P : Params α} {v : VoiceState α}
  {d : α → α → α} (E : IsExact N) (same : ∀ a b, 0 < b → d a b = N.div a b)

/-! Another quotient, the same for every positive divisor, changes no value that a pull or a release computes. -/

include same

theorem samplePeriod_withDiv (hP : 0 < P.sampleRate) : samplePeriod (N.withDiv d) P = samplePeriod N P :=
  same _ _ hP

theorem oscSine_withDiv (hP : 0 < P.sampleRate) (phase f : α) :
    oscSine (N.withDiv d) P phase f = oscSine N P phase f := by
  simp only [oscSine, Numerics.withDiv, same _ _ hP]

include E

/-- The sweep divides by its duration only before that is over, so the duration is positive. -/
theorem sweepValue_withDiv {c : α} (hc : 0 ≤ c) : sweepValue (N.withDiv d) P c = sweepValue N P c := by
  simp only [sweepValue, Numerics.withDiv, E.ge]
  split_ifs with reached
  · rfl
  · rw [same _ _ (hc.trans_lt (not_le.mp reached))]

variable [IsStrictOrderedRing α]

/-- The attack divides by its time only before that is over, and the decay only while it lasts. -/
theorem envValueActive_withDiv {t : α} (ht : 0 ≤ t) : envValueActive (N.withDiv d) P t = envValueActive N P t := by
  simp only [envValueActive, Numerics.withDiv, E.lt, E.add]
  split_ifs with attack decay
  · exact same _ _ (ht.trans_lt attack)
  · rw [same _ _ (decayTime_pos_of_decay (not_lt.mp attack) decay)]
  · rfl

/-- The release divides by its time only while it lasts. -/
theorem envValueRelease_withDiv {level start t : α} (started : start ≤ t) :
    envValueRelease (N.withDiv d) P level start t = envValueRelease N P level start t := by
  simp only [envValueRelease, Numerics.withDiv, E.lt, E.sub]
  split_ifs with lasts
  · rw [same _ _ ((sub_nonneg.mpr started).trans_lt lasts)]
  · rfl

theorem envValue_withDiv (elapsed : 0 ≤ v.elapsedTime)
    (started : v.isActive = false → v.releaseStartTime ≤ v.elapsedTime) :
    envValue (N.withDiv d) P v = envValue N P v := by
  cases active : v.isActive with
  | true => simp only [envValue_of_active _ _ v active, envValueActive_withDiv E same elapsed]
  | false => simp only [envValue_of_inactive _ _ v active, envValueRelease_withDiv E same (started active)]

theorem envRelease_withDiv (elapsed : 0 ≤ v.elapsedTime) : envRelease (N.withDiv d) P v = envRelease N P v := by
  cases active : v.isActive with
  | true => simp only [envRelease_of_active _ _ v active, envValueActive_withDiv E same elapsed]
  | false => simp only [envRelease_of_inactive _ _ v active]

theorem nextSample_withDiv (hP : 0 < P.sampleRate) (elapsed : 0 ≤ v.elapsedTime) (current : 0 ≤ v.currentTime)
    (started : v.isActive = false → v.releaseStartTime ≤ v.elapsedTime) :
    nextSample (N.withDiv d) P v = nextSample N P v := by
  simp only [nextSample, playingSample, toneSine, clickSine, swpAdvance, envAdvance,
    sweepValue_withDiv E same current, envValue_withDiv E same elapsed started, oscSine_withDiv same hP,
    samplePeriod_withDiv same hP]
  rfl

end

/-- Settles O12: each arm that divides has a positive divisor, where the other quotient is the exact one. -/
theorem noDivisionByANonPositiveNumberIsReached : Obligations.NoDivisionByANonPositiveNumberIsReached := by
  intro d P v quotient hP elapsed current started
  have same (a b : Number) (hb : 0 < b) : d a b = (numerics .exact).div a b := by
    rw [quotient a b hb, exact_div_of_pos a b hb]
  exact ⟨nextSample_withDiv exact_isExact same hP elapsed current started,
    envRelease_withDiv exact_isExact same elapsed⟩

end Sys2Proof.Machine

/-! ## The sweep statements (42_sweep_envelope.md): the two end points, the four operations, and the shape -/

namespace Sys2Proof.Machine

/-! ### The end points, in every format (42_sweep_envelope.md R126, R127) -/

theorem startFrequency_finite (c : Configuration) : (numerics c.num).finite c.params.startFrequency = true :=
  params_finite c _ (by simp [Params.toList])

theorem endFrequency_finite (c : Configuration) : (numerics c.num).finite c.params.endFrequency = true :=
  params_finite c _ (by simp [Params.toList])

theorem pitchDecayTime_finite (c : Configuration) : (numerics c.num).finite c.params.pitchDecayTime = true :=
  params_finite c _ (by simp [Params.toList])

/-- The comparison comes first, so the end value is reached with no arithmetic. -/
theorem sweepValue_of_duration_le (c : Configuration) (t : Number) (finite : (numerics c.num).finite t = true)
    (ended : c.params.pitchDecayTime ≤ t) : sweepValue (numerics c.num) c.params t = c.params.endFrequency := by
  have reached : (numerics c.num).ge t c.params.pitchDecayTime = true := by
    simpa [numerics_ge _ _ _ finite (pitchDecayTime_finite c)] using ended
  rw [sweepValue, if_pos reached]

/-- The arithmetic of R127: the progress is 0 by `N_div0`, so the curve is 0 by `N_exp0` and `N_sub_self`, and it scales
the difference to 0 by `N_mul0`, which `N_add0` adds. -/
theorem sweepValue_zero_of_duration_pos (c : Configuration) (hT : 0 < c.params.pitchDecayTime)
    (difference : (numerics c.num).finite ((numerics c.num).sub c.params.endFrequency c.params.startFrequency) = true) :
    sweepValue (numerics c.num) c.params 0 = c.params.startFrequency := by
  have L := numerics_lawful c.num
  obtain ⟨-, steepness, -⟩ := constants_finite c
  have started : (numerics c.num).ge 0 c.params.pitchDecayTime = false := by
    simpa [numerics_ge _ _ _ L.finite_zero (pitchDecayTime_finite c)] using hT
  simp only [sweepValue, started, Bool.false_eq_true, if_false, L.zero_div_of_finite _ (pitchDecayTime_finite c) hT,
    L.const_zero, L.mul_zero _ steepness, L.exp_zero, L.const_one, L.sub_self _ L.finite_one, L.mul_zero _ difference,
    L.add_zero]

/-- A sweep that lasts no time stands at its end from the start. -/
theorem sweepValue_zero_of_duration_nonpos (c : Configuration) (hT : c.params.pitchDecayTime ≤ 0) :
    sweepValue (numerics c.num) c.params 0 = c.params.endFrequency :=
  sweepValue_of_duration_le c 0 (numerics_finite_zero _) hT

/-- Settles O17: the arithmetic at time 0, and the comparison that comes first from the duration on. -/
theorem sweepEndPointsAreExact : Obligations.SweepEndPointsAreExact :=
  fun cfg => ⟨sweepValue_zero_of_duration_pos cfg, sweepValue_zero_of_duration_nonpos cfg,
    sweepValue_of_duration_le cfg⟩

/-! ### What the four operations answer on the machine -/

theorem exec_swpValue (s : State) {f : Number} (value : sweepValue s.ops s.params s.voice.currentTime = f)
    (finite : s.ops.finite f = true) : exec .swpValue s = .next { s with bus := some (.num f) } := by
  subst value
  exact (lift_finish_next s _ _ _).mpr ⟨by simpa using finite, rfl⟩

theorem exec_swpAdvance (s : State)
    (finite : s.ops.finite (s.ops.add s.voice.currentTime (samplePeriod s.ops s.params)) = true) :
    exec .swpAdvance s = .next { s with voice := swpAdvance s.ops s.params s.voice, bus := some .done } :=
  (lift_finish_next s _ _ _).mpr ⟨by simpa using finite, rfl⟩

/-- SWP.RESET always answers, in every format (42_sweep_envelope.md R124). -/
theorem exec_swpReset (s : State) :
    exec .swpReset s = .next { s with voice := { s.voice with currentTime := 0 }, bus := some .done } := by
  rw [← numerics_const_zero s.cfg.num]
  rfl

theorem exec_swpTime (s : State) (finite : s.ops.finite s.voice.currentTime = true) :
    exec .swpTime s = .next { s with bus := some (.num s.voice.currentTime) } :=
  (lift_finish_next s _ _ _).mpr ⟨by simpa using finite, rfl⟩

/-- Settles O15: the stated value is `sweepValue` written out, the one value that SWP.VALUE must have finite. -/
theorem sweepValueInterpolatesThenClamps : Obligations.SweepValueInterpolatesThenClamps :=
  fun s => ⟨rfl, exec_swpValue s rfl⟩

/-- Settles O16: SWP.VALUE after the reset is the sweep at time 0, one of the two frequencies, which are finite. -/
theorem sweepClockOperations : Obligations.SweepClockOperations := by
  intro s c
  refine ⟨⟨rfl, exec_swpAdvance s⟩,
    ⟨rfl, _, rfl, exec_swpReset s, exec_swpReset _, fun hT difference => ?_, fun hT => ?_⟩, ⟨rfl, exec_swpTime s⟩⟩
  · exact exec_swpValue _ (sweepValue_zero_of_duration_pos s.cfg hT difference) (startFrequency_finite s.cfg)
  · exact exec_swpValue _ (sweepValue_zero_of_duration_nonpos s.cfg hT) (endFrequency_finite s.cfg)

/-! ### The shape over the reals (42_sweep_envelope.md R128) -/

theorem realNumerics_exp (x : ℝ) : realNumerics.exp x = Real.exp x := rfl

/-- The part of the way from the start to the end that the sweep has gone at a time: the curve of `sweep_value`, and 1
once the duration is over (sweepValue_eq_sweepCurve). -/
noncomputable def sweepCurve (P : Params ℝ) (t : ℝ) : ℝ :=
  if P.pitchDecayTime ≤ t then 1 else 1 - Real.exp (-(P.kCurve * (t / P.pitchDecayTime)))

section
variable {P : Params ℝ} {t : ℝ}

theorem sweepCurve_of_duration_le (ended : P.pitchDecayTime ≤ t) : sweepCurve P t = 1 := if_pos ended

theorem sweepCurve_of_lt_duration (lasts : t < P.pitchDecayTime) :
    sweepCurve P t = 1 - Real.exp (-(P.kCurve * (t / P.pitchDecayTime))) := if_neg lasts.not_ge

/-- The two arms of `sweep_value` as one interpolation, at the times the sweep runs through. -/
theorem sweepValue_eq_sweepCurve (nonneg : 0 ≤ t) :
    sweepValue realNumerics P t = P.startFrequency + (P.endFrequency - P.startFrequency) * sweepCurve P t := by
  have E := real_isExact
  obtain ended | lasts := le_or_gt P.pitchDecayTime t
  · rw [sweepValue, if_pos ((E.ge _ _).mpr ended), sweepCurve_of_duration_le ended]
    ring
  · have hT : P.pitchDecayTime ≠ 0 := (nonneg.trans_lt lasts).ne'
    simp only [sweepValue, E.ge, if_neg lasts.not_ge, sweepCurve_of_lt_duration lasts, E.add, E.sub, E.mul,
      E.div _ _ hT, E.zero, E.one, realNumerics_exp, zero_sub, neg_mul]

theorem sweepCurve_le_one : sweepCurve P t ≤ 1 := by
  obtain ended | lasts := le_or_gt P.pitchDecayTime t
  · rw [sweepCurve_of_duration_le ended]
  · rw [sweepCurve_of_lt_duration lasts]
    exact sub_le_self 1 (Real.exp_nonneg _)

variable (hK : 0 ≤ P.kCurve)
include hK

/-- The curve rises with the progress while the sweep lasts, and its last step, to 1, goes up too. -/
theorem monotoneOn_sweepCurve : MonotoneOn (sweepCurve P) (Set.Ici 0) := by
  intro t started u _ later
  obtain ended | lasts := le_or_gt P.pitchDecayTime u
  · rw [sweepCurve_of_duration_le ended]
    exact sweepCurve_le_one
  · have lasted : t < P.pitchDecayTime := later.trans_lt lasts
    have hT : 0 ≤ P.pitchDecayTime := started.trans lasted.le
    rw [sweepCurve_of_lt_duration lasted, sweepCurve_of_lt_duration lasts]
    gcongr

theorem sweepCurve_mem_Icc (nonneg : 0 ≤ t) : sweepCurve P t ∈ Set.Icc 0 1 := by
  refine ⟨?_, sweepCurve_le_one⟩
  obtain ended | lasts := le_or_gt P.pitchDecayTime t
  · rw [sweepCurve_of_duration_le ended]
    exact zero_le_one
  · have progress : 0 ≤ t / P.pitchDecayTime := div_nonneg nonneg (nonneg.trans lasts.le)
    rw [sweepCurve_of_lt_duration lasts, sub_nonneg, Real.exp_le_one_iff, neg_nonpos]
    exact mul_nonneg hK progress

/-- The sweep is a convex combination of its two ends. -/
theorem sweepValue_mem_uIcc (nonneg : 0 ≤ t) :
    sweepValue realNumerics P t ∈ Set.uIcc P.startFrequency P.endFrequency := by
  rw [sweepValue_eq_sweepCurve nonneg, mul_comm]
  exact (convex_uIcc _ _).add_smul_sub_mem Set.left_mem_uIcc Set.right_mem_uIcc (sweepCurve_mem_Icc hK nonneg)

end

/-- Settles O18: the sweep scales the distance between its ends by a curve that rises within [0, 1]. -/
theorem sweepIsMonotoneAndBetweenItsEnds : Obligations.SweepIsMonotoneAndBetweenItsEnds := by
  intro P hK
  have rises := monotoneOn_sweepCurve hK
  refine ⟨fun up t ht u hu later => ?_, fun down t ht u hu later => ?_, fun c => sweepValue_mem_uIcc hK⟩
  · rw [sweepValue_eq_sweepCurve ht, sweepValue_eq_sweepCurve hu]
    exact add_le_add_right (mul_le_mul_of_nonneg_left (rises ht hu later) (sub_nonneg.mpr up)) _
  · rw [sweepValue_eq_sweepCurve ht, sweepValue_eq_sweepCurve hu]
    exact add_le_add_right (mul_le_mul_of_nonpos_left (rises ht hu later) (sub_nonpos.mpr down)) _

end Sys2Proof.Machine

/-! ## The voice statements (43_voice_mixer.md): the four commands, the sample and its bound, and how long a voice plays -/

namespace Sys2Proof.Machine

/-! ### What the four commands answer on the machine -/

/-- NOP always answers, in every format (43_voice_mixer.md R141). -/
theorem exec_nop (s : State) : exec .nop s = .next { s with rsp := some (.data 0) } := by
  rw [← numerics_const_zero s.cfg.num]
  rfl

theorem exec_nextSample_next (s t : State) :
    let r := nextSample s.ops s.params s.voice
    exec .nextSample s = .next t ↔
      (∀ x ∈ pullValues s.ops s.params s.voice, s.ops.finite x = true) ∧
      t = { s with voice := r.2, rsp := some (.data r.1) } :=
  lift_finish_next s t _ _

/-- Step 6 of a pull on a playing voice (43_voice_mixer.md R144). -/
theorem stopIfFinished_of_playing {α : Type} (N : Numerics α) (P : Params α) (v : VoiceState α)
    (h : v.isPlaying = true) : stopIfFinished N P v = { v with isPlaying := !envIsFinished N P v } := by
  cases finished : envIsFinished N P v <;> simp [stopIfFinished, finished, ← h]

/-- Settles O19: NOP has no value to refuse. -/
theorem nopOnlyAnswers : Obligations.NopOnlyAnswers := fun s => ⟨rfl, exec_nop s⟩

/-- Settles O20: TRIGGER's five statements in the number 0, which is `const 0` of every format. -/
theorem triggerRestartsTheVoice : Obligations.TriggerRestartsTheVoice := by
  intro s
  refine ⟨rfl, ?_⟩
  rw [exec_trigger, ← numerics_const_zero s.cfg.num]
  rfl

/-- Settles O21: a pull of a stopped voice carries no value, and its silence is the number 0. -/
theorem nextSampleIsSilentWhileStopped : Obligations.NextSampleIsSilentWhileStopped := by
  intro s stopped
  refine ⟨rfl, (exec_nextSample_next s _).mpr ⟨by simp [pullValues, stopped], ?_⟩⟩
  rw [nextSample_of_stopped _ _ _ stopped, numerics_const_zero]

/-- Settles O22: the listed values are those that the pull must have finite, and the advanced voice is the one that step 6
decides on. -/
theorem nextSampleComputesThenAdvances : Obligations.NextSampleComputesThenAdvances := by
  intro s playing N P v wrap DT f f8 amp tone csin decay click out advanced finite
  have pulled : nextSample N P v = (out, { advanced with isPlaying := !envIsFinished N P advanced }) := by
    rw [nextSample_of_playing N P v playing, ← stopIfFinished_of_playing N P advanced playing]
    rfl
  refine (exec_nextSample_next s _).mpr ⟨?_, by rw [pulled]⟩
  rw [pullValues_of_playing N P v playing, pulled]
  simp only [List.forall_mem_cons] at finite ⊢
  obtain ⟨hf, hamp, htone, hf8, hcsin, hcurrent, hout, tonePhase, clickPhase, currentTime, elapsedTime, none⟩ := finite
  exact ⟨hf, hamp, htone, tonePhase, hf8, hcsin, clickPhase, hcurrent, hout, currentTime, elapsedTime, none⟩

/-- Settles O23: an active envelope captures the two values that must be finite, an inactive one captures none. -/
theorem noteOffReleasesTheEnvelope : Obligations.NoteOffReleasesTheEnvelope := by
  intro s a
  refine ⟨rfl, fun active level_finite time_finite => ⟨exec_envValue s rfl level_finite, ?_⟩, fun inactive => ?_⟩
  · rw [exec_noteOff s (by simp [captured_of_active _ _ _ active, a, level_finite, time_finite]),
      envRelease_of_active _ _ _ active, ← envValue_of_active _ _ _ active]
  · rw [exec_noteOff s (by simp [captured_of_inactive _ _ _ inactive]), envRelease_of_inactive _ _ _ inactive]

/-! ### The step after a TRIGGER -/

theorem step_trig (s : State) (rest : List (HostEvent Number)) (hp : s.pending = trig :: rest) :
    step s = .next { s with
      voice := voiceTrigger s.ops s.voice
      rsp := some (.data 0), bus := none, pending := rest, freeCount := s.freeCount + 1 } := by
  rw [stepRunsTheDecodedCommand s _ rest .trigger hp rfl, exec_trigger]

theorem step_pull (s : State) (rest : List (HostEvent Number)) (hp : s.pending = pull :: rest) :
    step s = exec .nextSample { s with rsp := none, bus := none, pending := rest, freeCount := s.freeCount + 1 } :=
  stepRunsTheDecodedCommand s _ rest .nextSample hp rfl

/-- Settles O58: two voices just triggered differ in the capture alone, which a sounding voice does not show. -/
theorem triggerForgetsThePast : Obligations.TriggerForgetsThePast := by
  intro k s t rest cfg hs ht ports
  cases k with
  | zero => rfl
  | succ k =>
    have ops : t.ops = s.ops := congrArg (numerics ·.num) cfg.symm
    simp only [observations, step_trig s rest hs, step_trig t rest ht, ops]
    refine congrArg _ (observations_of_sameRun k _ _ cfg ⟨rfl, ports, ?_⟩)
    exact .sounding (voiceTrigger s.ops s.voice) t.voice.releaseStartLevel t.voice.releaseStartTime rfl

/-! ### The sample of time index 0 (43_voice_mixer.md R149) -/

/-- `0 * x = 0` for a finite `x`, in every format (log 12). -/
theorem numerics_zero_mul (f : NumFormat) (x : Number) (h : (numerics f).finite x = true) : (numerics f).mul 0 x = 0 := by
  cases f with
  | exact => exact zero_mul x
  | implementation k => exact if_pos (.inl ⟨rfl, h⟩)

/-- Both sines are 0 at phase 0, and the mix scales their sum, so the sample of a voice just triggered is 0. -/
theorem playingSample_voiceTrigger (c : Configuration) (v : VoiceState Number)
    (amp : (numerics c.num).finite (envValue (numerics c.num) c.params (voiceTrigger (numerics c.num) v)) = true) :
    (playingSample (numerics c.num) c.params (voiceTrigger (numerics c.num) v)).1 = 0 := by
  have L := numerics_lawful c.num
  obtain ⟨twoPi, -, decay⟩ := constants_finite c
  have level : (numerics c.num).finite c.params.clickLevel = true := params_finite c _ (by simp [Params.toList])
  have atten : (numerics c.num).finite c.params.kOutAtten = true := params_finite c _ (by simp [Params.toList])
  have click : clickLayer (numerics c.num) c.params 0 0 = 0 := by
    simp only [clickLayer, L.const_zero, numerics_zero_mul _ _ level, L.mul_zero _ decay, L.exp_zero,
      numerics_zero_mul_one]
  rw [playingSample_out, voiceTrigger_tonePhase, voiceTrigger_clickPhase, voiceTrigger_currentTime, L.const_zero,
    L.mul_zero _ twoPi, L.sin_zero, click, mix, L.add_zero, numerics_zero_mul _ _ amp, numerics_zero_mul _ _ atten]

/-- Settles O25: a pull that answers had a finite amplitude, and it mixes two sines of phase 0. -/
theorem firstSampleAfterTriggerIsZero : Obligations.FirstSampleAfterTriggerIsZero := by
  intro s rest hp
  refine ⟨_, step_trig s _ hp, fun hx => ?_, fun u hu => ?_, fun hA => ?_, fun hT difference => ?_⟩
  · rw [step_pull _ rest rfl]
    exact ⟨_, (exec_nextSample_next _ _).mpr ⟨fun x _ => (State.isExact (s := s) hx).finite x, rfl⟩⟩
  · rw [step_pull _ rest rfl] at hu
    obtain ⟨finite, rfl⟩ := (exec_nextSample_next _ u).mp hu
    rw [pullValues_of_playing _ _ _ rfl] at finite
    have sample := playingSample_voiceTrigger s.cfg s.voice (finite _ (by simp [State.ops, State.params]))
    exact ⟨congrArg (fun x => some (Response.data x)) sample, rfl⟩
  · rw [envValue_of_active _ _ _ rfl, voiceTrigger_elapsedTime, numerics_const_zero]
    exact envValueActive_zero_of_attack s.cfg hA
  · rw [voiceTrigger_currentTime, numerics_const_zero]
    exact sweepValue_zero_of_duration_pos s.cfg hT difference

/-! ### The bound of the sample in exact arithmetic, over any ordered field (43_voice_mixer.md R147) -/

section
variable {α : Type} [Field α] [LinearOrder α] [IsStrictOrderedRing α] {N : Numerics α} {P : Params α}
  {v : VoiceState α}

/-- The tone is at most 1 in magnitude and the click at most `|CLICK_LEVEL|`, as its decay shrinks it; the amplitude
shrinks their sum, and `K_OUT_ATTEN` scales it. -/
theorem IsExact.abs_mix_le (E : IsExact N) {tone click amp : α} (htone : |tone| ≤ 1) (hclick : |click| ≤ |P.clickLevel|)
    (amp_nonneg : 0 ≤ amp) (amp_le_one : amp ≤ 1) :
    |mix N P tone click amp| ≤ |P.kOutAtten| * (1 + |P.clickLevel|) := by
  simp only [mix, E.add, E.mul, abs_mul, abs_of_nonneg amp_nonneg]
  have sum : |tone + click| ≤ 1 + |P.clickLevel| := (abs_add_le _ _).trans (add_le_add htone hclick)
  calc |tone + click| * amp * |P.kOutAtten|
    _ ≤ |tone + click| * |P.kOutAtten| := by gcongr; exact mul_le_of_le_one_right (abs_nonneg _) amp_le_one
    _ ≤ (1 + |P.clickLevel|) * |P.kOutAtten| := by gcongr
    _ = |P.kOutAtten| * (1 + |P.clickLevel|) := mul_comm _ _

/-- The click layer scales `CLICK_LEVEL` by a sine and by a decay of at most 1. -/
theorem IsExact.abs_clickLayer_le (E : IsExact N) {csin tc : α} (hcsin : |csin| ≤ 1)
    (decay_nonneg : 0 ≤ N.exp (-P.kClickDecay * tc)) (decay_le_one : N.exp (-P.kClickDecay * tc) ≤ 1) :
    |clickLayer N P csin tc| ≤ |P.clickLevel| := by
  simp only [clickLayer, E.mul, E.sub, E.zero, zero_sub, abs_mul, abs_of_nonneg decay_nonneg]
  exact (mul_le_of_le_one_right (by positivity) decay_le_one).trans (mul_le_of_le_one_left (abs_nonneg _) hcsin)

/-- The sample of a playing voice, where the two sines, the click's decay and the amplitude have their ranges. -/
theorem IsExact.abs_playingSample_le (E : IsExact N) (tone : |N.sin (N.mul N.twoPi v.tonePhase)| ≤ 1)
    (click : |N.sin (N.mul N.twoPi v.clickPhase)| ≤ 1) (decay_nonneg : 0 ≤ N.exp (-P.kClickDecay * v.currentTime))
    (decay_le_one : N.exp (-P.kClickDecay * v.currentTime) ≤ 1) (amp_nonneg : 0 ≤ envValue N P v)
    (amp_le_one : envValue N P v ≤ 1) :
    |(playingSample N P v).1| ≤ |P.kOutAtten| * (1 + |P.clickLevel|) := by
  rw [playingSample_out]
  exact E.abs_mix_le tone (E.abs_clickLayer_le click decay_nonneg decay_le_one) amp_nonneg amp_le_one

end

/-- Settles O26: in exact arithmetic the pull answers, and the bounds of the state bound its amplitude. -/
theorem sampleMagnitudeIsBounded : Obligations.SampleMagnitudeIsBounded := by
  intro s h playing tone click decay_nonneg decay_le_one
  have E := State.isExact h.exact
  obtain ⟨amp_nonneg, amp_le_one⟩ := E.envValue_mem h.sensible h.voice
  refine ⟨_, _, (exec_nextSample_next s _).mpr ⟨fun x _ => E.finite x, rfl⟩, rfl, ?_⟩
  rw [nextSample_of_playing _ _ _ playing]
  exact E.abs_playingSample_le tone click decay_nonneg decay_le_one amp_nonneg amp_le_one

/-- Over the reals the sines have their range, and the decay has its own from time 0 on; a stopped voice is silent. -/
theorem abs_real_nextSample_le (P : Params ℝ) (v : VoiceState ℝ) (hK : 0 ≤ P.kClickDecay) (current : 0 ≤ v.currentTime)
    (amp_nonneg : 0 ≤ envValue realNumerics P v) (amp_le_one : envValue realNumerics P v ≤ 1) :
    |(nextSample realNumerics P v).1| ≤ |P.kOutAtten| * (1 + |P.clickLevel|) := by
  obtain ⟨-, hv⟩ | ⟨-, hv⟩ := nextSample_cases realNumerics P v
  · rw [hv, real_isExact.zero, abs_zero]
    positivity
  · have decay : -P.kClickDecay * v.currentTime ≤ 0 := mul_nonpos_of_nonpos_of_nonneg (neg_nonpos.mpr hK) current
    rw [hv]
    exact real_isExact.abs_playingSample_le (Real.abs_sin_le_one _) (Real.abs_sin_le_one _) (Real.exp_nonneg _)
      (Real.exp_le_one_iff.mpr decay) amp_nonneg amp_le_one

/-! ### What a block answers: a next state or the refusal of 00_scope.md R14, and on the response port 0 or a sample -/

/-- The outcome is a next state, or the one refusal of an operation, for a value that is not finite (00_scope.md R14). -/
def Answers {α : Type} (N : Numerics α) (o : Host.Outcome (RunState α) Fault Refusal) : Prop :=
  (∃ t, o = .next t) ∨ (o = .refused .nonFinite ∧ ∃ x, N.finite x = false)

theorem answers_finish {α : Type} (N : Numerics α) (values : List α) (t : RunState α) :
    Answers N (finish N values t) := by
  by_cases finite : ∀ x ∈ values, N.finite x = true
  · exact .inl ⟨t, (finish_next N values t t).mpr ⟨finite, rfl⟩⟩
  · push Not at finite
    obtain ⟨x, hx, infinite⟩ := finite
    exact .inr ⟨finish_of_mem_not_finite N values t x hx (by simpa using infinite), x, by simpa using infinite⟩

theorem Answers.next_of_finite {α : Type} {N : Numerics α} {o : Host.Outcome (RunState α) Fault Refusal}
    (h : Answers N o) (finite : ∀ x, N.finite x = true) : ∃ t, o = .next t := by
  obtain next | ⟨-, x, infinite⟩ := h
  · exact next
  · exact absurd ((finite x).symm.trans infinite) nofun

section
variable {α : Type} [Zero α] [One α] [LT α] (B : Block α)

/-- No operation faults or is refused for another reason (60_exceptions.md R170). -/
theorem answers_execOf (i : Instr) (arg : α) (s : RunState α) : Answers B.num (execOf B i arg s) := by
  cases i
  case nextSample | noteOff | toneSine | clickSine | envValue | envAdvance | envRelease | swpValue | swpAdvance
      | swpTime => exact answers_finish _ _ _
  all_goals exact .inl ⟨_, rfl⟩

/-- Driven by its ports, a block answers every event (70_reset_and_hazards.md R204). -/
theorem answers_stepOf (s : RunState α) (ports : s.portOnly) : Answers B.num (stepOf B s) := by
  unfold stepOf
  cases hp : s.pending with
  | nil => exact .inl ⟨_, rfl⟩
  | cons e rest =>
    cases e with
    | idle | rst => exact .inl ⟨_, rfl⟩
    | command op =>
      cases hi : decodeCmd op with
      | none => simp only [hi]; exact .inl ⟨_, rfl⟩
      | some i => simp only [hi]; exact answers_execOf B i _ _
    | unitOp op arg => exact absurd (ports (.unitOp op arg) (by simp [hp])) Bool.false_ne_true

theorem stepOf_portOnly {s t : RunState α} (h : stepOf B s = .next t) (ports : s.portOnly) : t.portOnly := by
  intro e he
  rw [(stepOf_cases B s t h).1] at he
  exact ports e (List.mem_of_mem_tail he)

/-- An operation responds with 0 or with the sample of a pull, or leaves the response port as it is. -/
theorem execOf_rsp (i : Instr) (arg : α) (s t : RunState α) (h : execOf B i arg s = .next t) :
    t.rsp = s.rsp ∨ t.rsp = some (.data (B.num.const 0)) ∨
      t.rsp = some (.data (nextSample B.num B.params s.voice).1) := by
  cases i
  case nop | trigger => cases h; exact .inr (.inl rfl)
  case noteOff =>
    obtain ⟨-, rfl⟩ := (finish_next _ _ _ _).mp h
    exact .inr (.inl rfl)
  case nextSample =>
    obtain ⟨-, rfl⟩ := (finish_next _ _ _ _).mp h
    exact .inr (.inr rfl)
  case toneReset | clickReset | envTrigger | envFinished | swpReset => cases h; exact .inl rfl
  all_goals
    obtain ⟨-, rfl⟩ := (finish_next _ _ _ _).mp h
    exact .inl rfl

/-- The data that a step of a block responds is 0 or the sample of a pull (30_encoding.md R56). -/
theorem stepOf_data (s t : RunState α) (h : stepOf B s = .next t) (d : α) (hd : t.rsp = some (.data d)) :
    d = B.num.const 0 ∨ d = (nextSample B.num B.params s.voice).1 := by
  have operation (i : Instr) (arg : α) (rest : List (HostEvent α)) (h : execOf B i arg (s.accept rest) = .next t) :
      d = B.num.const 0 ∨ d = (nextSample B.num B.params s.voice).1 := by
    have rsp := execOf_rsp B i arg _ t h
    rw [hd] at rsp
    simpa using rsp
  unfold stepOf at h
  split at h
  · cases h; cases hd
  · cases h; cases hd
  · cases h; cases hd
  · split at h
    · exact operation _ _ _ h
    · cases h; cases hd
  · split at h
    · exact operation _ _ _ h
    · cases h

end

/-- Settles O27: every operation keeps the bounds of the voice, which bound the amplitude, and the data of a response is
0 or a sample. -/
theorem realSampleMagnitudeIsBounded : Obligations.RealSampleMagnitudeIsBounded := by
  intro P hK
  refine ⟨fun v => abs_real_nextSample_le P v hK, fun h s sensible bounds => ?_⟩
  have E := real_isExact
  have zero : (realBlock P h).num.const 0 = 0 := E.zero
  refine ⟨fun ports => ?_, fun t ht => ⟨?_, fun d hd => ?_⟩⟩
  · obtain ⟨t, ht⟩ := (answers_stepOf (realBlock P h) s ports).next_of_finite E.finite
    exact ⟨t, ht, stepOf_portOnly _ ht ports⟩
  · obtain ⟨-, hv | ⟨-, -, hv⟩ | ⟨-, -, i, arg, -, -, hv⟩⟩ := stepOf_cases (realBlock P h) s t ht
    · exact hv ▸ bounds
    · rw [hv, zero]
      exact voiceBounds_atReset
    · exact hv ▸ bounds.voiceAfter E sensible (E.samplePeriod_pos h).le i arg
  · obtain ⟨amp_nonneg, amp_le_one⟩ := E.envValue_mem sensible bounds
    obtain rfl | rfl := stepOf_data (realBlock P h) s t ht d hd
    · rw [zero, abs_zero]
      positivity
    · exact abs_real_nextSample_le P s.voice hK bounds.current amp_nonneg amp_le_one

/-! ### A voice without NOTE_OFF (43_voice_mixer.md R148) -/

/-- Driven by its ports the machine answers every event, and in exact arithmetic it refuses none. -/
theorem step_answers (s : State) (ports : s.portOnly) :
    (∃ t, step s = .next t) ∨ (s.cfg.num ≠ .exact ∧ step s = .refused .nonFinite) := by
  rw [step_eq_lift]
  obtain ⟨t, ht⟩ | ⟨refused, x, infinite⟩ := answers_stepOf s.block s.toRunState ports
  · exact .inl ⟨{ s with toRunState := t }, by rw [ht]; rfl⟩
  · refine .inr ⟨fun hx => ?_, by rw [refused]; rfl⟩
    exact absurd (((State.isExact hx).finite x).symm.trans infinite) nofun

theorem HostEvent.onPort_of_keepsVoice {α : Type} {e : HostEvent α} (h : e.keepsVoice = true) : e.onPort = true := by
  cases e with
  | idle | command => rfl
  | rst | unitOp => cases h

/-- An event that keeps the voice presents NOP, TRIGGER or NEXT_SAMPLE, if any operation. -/
theorem HostEvent.presents_of_keepsVoice {α : Type} {e : HostEvent α} {i : Instr} (h : e.keepsVoice = true)
    (he : e.presents i) : i = .nop ∨ i = .trigger ∨ i = .nextSample := by
  cases e with
  | idle | rst => exact he.elim
  | unitOp => cases h
  | command op =>
    obtain ⟨rfl, port⟩ := he
    cases i
    case nop | trigger | nextSample => simp
    case noteOff => cases h
    all_goals cases port

/-- Neither a TRIGGER nor a pull ends an active voice: only a finished envelope is stopped, and an active one has not
finished. -/
theorem voiceAfter_keeps_sounding {α : Type} (N : Numerics α) (P : Params α) {i : Instr} (arg : α) {v : VoiceState α}
    (hi : i = .nop ∨ i = .trigger ∨ i = .nextSample) (active : v.isActive = true) (playing : v.isPlaying = true) :
    (voiceAfter N P i arg v).isActive = true ∧ (voiceAfter N P i arg v).isPlaying = true := by
  obtain rfl | rfl | rfl := hi
  · exact ⟨active, playing⟩
  · exact ⟨rfl, rfl⟩
  · have still : (nextSample N P v).2.isActive = true := (nextSample_isActive N P v).trans active
    exact ⟨still, by simp [voiceAfter, nextSample_isPlaying, playing, envIsFinished, still]⟩

theorem Sounding.portOnly {s : State} (h : Sounding s) : s.portOnly :=
  fun e he => HostEvent.onPort_of_keepsVoice (h.events e he)

/-- A step of a sounding voice leaves it sounding. -/
theorem Sounding.step {s t : State} (h : Sounding s) (ht : step s = .next t) : Sounding t := by
  have events (e) (he : e ∈ t.pending) : e.keepsVoice = true :=
    h.events e (List.mem_of_mem_tail (step_pending s t ht ▸ he))
  obtain hv | ⟨rest, hp, -⟩ | ⟨e, rest, i, arg, hp, he, hv⟩ := step_voice_cases s t ht
  · exact ⟨events, hv ▸ h.active, hv ▸ h.playing⟩
  · exact absurd (h.events .rst (by simp [hp])) Bool.false_ne_true
  · have hi := HostEvent.presents_of_keepsVoice (h.events e (by simp [hp])) he
    obtain ⟨active, playing⟩ := voiceAfter_keeps_sounding s.ops s.params arg hi h.active h.playing
    exact ⟨events, hv ▸ active, hv ▸ playing⟩

theorem runSteps_succ_of_next {s t : State} (k : Nat) (h : step s = .next t) : runSteps (k + 1) s = runSteps k t := by
  simp only [runSteps, Host.Core.run, core, h]

theorem runSteps_succ_of_refused {s : State} {r : Refusal} (k : Nat) (h : step s = .refused r) :
    runSteps (k + 1) s = .refused r := by
  simp only [runSteps, Host.Core.run, core, h]

/-- Settles O54, by induction on the steps: each answers and leaves the voice sounding, or ends the run with the refusal
of a value that is not finite. -/
theorem voiceWithoutNoteOffPlaysForever : Obligations.VoiceWithoutNoteOffPlaysForever := by
  intro k
  induction k with
  | zero => exact fun s h => .inl ⟨s, rfl, h⟩
  | succ k ih =>
    intro s h
    obtain ⟨t, ht⟩ | ⟨hx, refused⟩ := step_answers s h.portOnly
    · rw [runSteps_succ_of_next k ht, ← (step_next s t ht).2]
      exact ih t (h.step ht)
    · exact .inr ⟨hx, runSteps_succ_of_refused k refused⟩

/-! ### A released voice (43_voice_mixer.md R146 (c)) -/

section
variable {α : Type} [Field α] [LinearOrder α] {B : Block α}

/-- A pull of an inactive voice leaves it playing when the time since its release, after the pull, is below
RELEASE_TIME. -/
theorem IsExact.playingSample_isPlaying_of_inactive {N : Numerics α} (E : IsExact N) (P : Params α) (v : VoiceState α)
    (playing : v.isPlaying = true) (inactive : v.isActive = false) :
    (playingSample N P v).2.isPlaying = true ↔
      v.elapsedTime - v.releaseStartTime + samplePeriod N P < P.releaseTime := by
  rw [playingSample_isPlaying, envIsFinished, envAdvance_isActive, inactive, playing, ← not_le, ← E.ge,
    sub_add_eq_add_sub, ← E.add, ← E.sub]
  simp

variable [IsStrictOrderedRing α]

/-- Pulls of an inactive voice in exact arithmetic: it plays on while the time since its release, which each pull
advances by one sample period, is below RELEASE_TIME; no pull at all stops nothing. -/
theorem IsExact.runStepsOf_released_pulls (E : IsExact B.num) (hP : 0 < B.params.sampleRate) (n : Nat) (s : RunState α)
    (rest : List (HostEvent α)) (hp : s.pending = List.replicate n pull ++ rest) (inactive : s.voice.isActive = false) :
    ∃ t, runStepsOf B n s = .next t ∧ t.pending = rest ∧
      (t.playing = true ↔ s.playing = true ∧ (n = 0 ∨ s.voice.elapsedTime - s.voice.releaseStartTime +
        n * samplePeriod B.num B.params < B.params.releaseTime)) := by
  induction n generalizing s with
  | zero => exact ⟨s, rfl, hp, by simp⟩
  | succ n ih =>
    have hstep := (stepOf_pull (B := B) hp).trans (finish_of_finite _ E.finite _ _)
    obtain ⟨t, ht, tpending, tplaying⟩ := ih
      (({ s.accept _ with voice := (nextSample B.num B.params s.voice).2 } : RunState α).respond _) rfl
      ((nextSample_isActive _ _ _).trans inactive)
    refine ⟨t, by rw [runStepsOf, hstep]; exact ht, tpending, tplaying.trans ?_⟩
    simp only [RunState.playing, RunState.respond_voice]
    obtain ⟨stopped, hv⟩ | ⟨playing, hv⟩ := nextSample_cases B.num B.params s.voice
    · simp [hv, stopped]
    · have further : 0 ≤ (n : α) * samplePeriod B.num B.params :=
        mul_nonneg n.cast_nonneg (E.samplePeriod_pos hP).le
      rw [hv, E.playingSample_isPlaying_of_inactive _ _ playing inactive, playingSample_elapsedTime,
        playingSample_releaseStartTime, E.add, playing]
      push_cast
      constructor
      · rintro ⟨first, rfl | last⟩
        · exact ⟨rfl, .inr (by simpa using first)⟩
        · exact ⟨rfl, .inr (by linarith)⟩
      · rintro ⟨-, none | last⟩
        · cases none
        · exact ⟨by linarith, .inr (by linarith)⟩

/-- The time since the release is 0 at first, and a playing voice is pulled. -/
theorem IsExact.runStepsOf_pulls_after_release (E : IsExact B.num) (hP : 0 < B.params.sampleRate) {n : Nat}
    (pulled : 1 ≤ n) {s : RunState α} {rest : List (HostEvent α)} (hp : s.pending = List.replicate n pull ++ rest)
    (playing : s.voice.isPlaying = true) (inactive : s.voice.isActive = false)
    (released : s.voice.releaseStartTime = s.voice.elapsedTime) :
    ∃ t, runStepsOf B n s = .next t ∧ t.pending = rest ∧
      (t.playing = true ↔ n * (1 / B.params.sampleRate) < B.params.releaseTime) := by
  obtain ⟨t, ht, tpending, tplaying⟩ := E.runStepsOf_released_pulls hP n s rest hp inactive
  refine ⟨t, ht, tpending, ?_⟩
  simpa [RunState.playing, playing, released, Nat.one_le_iff_ne_zero.mp pulled, E.samplePeriod_eq hP] using tplaying

end

/-- Settles O56: exact arithmetic and the reals both compute exactly, and the machine runs as its block. -/
theorem releasedVoiceStopsOnTime : Obligations.ReleasedVoiceStopsOnTime := by
  constructor
  · intro k s rest hx playing inactive released pulled hp
    obtain ⟨t, ht, hrun⟩ := (State.isExact hx).runStepsOf_pulls_after_release (B := s.block) (sampleRate_pos s.cfg)
      pulled hp playing inactive released
    exact ⟨{ s with toRunState := t }, by rw [runSteps_eq_lift, ht]; rfl, hrun⟩
  · intro k P h s rest playing inactive released pulled hp
    exact real_isExact.runStepsOf_pulls_after_release (B := realBlock P h) h pulled hp playing inactive released

end Sys2Proof.Machine

/-! ## The exception statements (60_exceptions.md): no operation fails, and a stopped voice is frozen -/

namespace Sys2Proof.Machine

/-! ### What an operation answers, and on which port (R170) -/

section
variable {α : Type} [Zero α] [One α] [LT α] (B : Block α)

/-- A command that answers puts data on the response port (30_encoding.md R56). -/
theorem execOf_response_of_command (i : Instr) (arg : α) (s t : RunState α) (command : i.port = .command)
    (h : execOf B i arg s = .next t) : ∃ d, t.rsp = some (.data d) := by
  cases i
  case nop | trigger => cases h; exact ⟨_, rfl⟩
  case nextSample | noteOff =>
    obtain ⟨-, rfl⟩ := (finish_next _ _ _ _).mp h
    exact ⟨_, rfl⟩
  all_goals cases command

/-- A unit operation that answers does so on the unit bus, and leaves the response port as it is (30_encoding.md R59). -/
theorem execOf_answer_of_unitBus (i : Instr) (arg : α) (s t : RunState α) (unitBus : i.port = .unitBus)
    (h : execOf B i arg s = .next t) : (∃ r, t.bus = some r) ∧ t.rsp = s.rsp := by
  cases i
  case nop | trigger | nextSample | noteOff => cases unitBus
  case toneReset | clickReset | envTrigger | envFinished | swpReset => cases h; exact ⟨⟨_, rfl⟩, rfl⟩
  all_goals
    obtain ⟨-, rfl⟩ := (finish_next _ _ _ _).mp h
    exact ⟨⟨_, rfl⟩, rfl⟩

end

/-- An operation of the machine answers, or is refused for a value that is not finite, which exact arithmetic has not. -/
theorem exec_answers (i : Instr) (s : State) :
    (∃ t, exec i s = .next t) ∨ (s.cfg.num ≠ .exact ∧ exec i s = .refused .nonFinite) := by
  rw [exec_eq_lift]
  obtain ⟨t, ht⟩ | ⟨refused, x, infinite⟩ := answers_execOf s.block i (operand i) s.toRunState
  · exact .inl ⟨_, (s.lift_next { s with toRunState := t } _).mpr ⟨ht, rfl⟩⟩
  · refine .inr ⟨fun hx => ?_, (s.lift_refused _ _).mpr refused⟩
    exact absurd (((State.isExact hx).finite x).symm.trans infinite) nofun

/-- Settles O29: what the block's operation answers, and on which port, is what the machine's does. -/
theorem noOperationFails : Obligations.NoOperationFails := by
  intro i s
  refine ⟨fun hx => ?_, (exec_answers i s).imp_right And.right, fun t ht => ?_⟩
  · exact (exec_answers i s).resolve_right fun refused => refused.1 hx
  · rw [exec_eq_lift, State.lift_next] at ht
    obtain ⟨run, -⟩ := ht
    refine ⟨fun command => ?_, fun unitBus => ?_⟩
    · obtain ⟨d, hd⟩ := execOf_response_of_command _ i _ _ _ command run
      simp [RunState.rspValid, RunState.rspErr, hd]
    · obtain ⟨⟨r, hr⟩, rsp⟩ := execOf_answer_of_unitBus _ i _ _ _ unitBus run
      exact ⟨by simp [hr], rsp⟩

/-! ### A stopped voice (R181) -/

/-- Of the four commands only TRIGGER writes a voice that is stopped and inactive: a pull of it is silence
(43_voice_mixer.md R143), and NOTE_OFF finds nothing to release (R146). -/
theorem voiceAfter_of_stopped {α : Type} (N : Numerics α) (P : Params α) (i : Instr) (arg : α) (v : VoiceState α)
    (command : i.port = .command) (trigger : i ≠ .trigger) (stopped : v.isPlaying = false)
    (inactive : v.isActive = false) : voiceAfter N P i arg v = v := by
  cases i
  case nop => rfl
  case trigger => contradiction
  case nextSample => exact congrArg Prod.snd (nextSample_of_stopped N P v stopped)
  case noteOff => exact envRelease_of_inactive N P v inactive
  all_goals cases command

/-- A step of a stopped voice in lockstep keeps it, or takes a TRIGGER or a reset. -/
theorem Lockstep.voice_of_stopped {s t : State} (h : Lockstep s) (stopped : s.playing = false)
    (ht : step s = .next t) :
    t.voice = s.voice ∨ ∃ rest, s.pending = trig :: rest ∨ s.pending = .rst :: rest := by
  obtain hv | ⟨rest, hp, -⟩ | ⟨e, rest, i, arg, hp, he, hv⟩ := step_voice_cases s t ht
  · exact .inl hv
  · exact .inr ⟨rest, .inr hp⟩
  by_cases trigger : i = .trigger
  · subst trigger
    exact .inr ⟨rest, .inl ((HostEvent.presents_trigger e).mp he ▸ hp)⟩
  · have command : i.port = .command := HostEvent.port_of_presents he (h.ports e (by simp [hp]))
    exact .inl (hv.trans (voiceAfter_of_stopped _ _ i arg _ command trigger stopped (h.stopped stopped)))

/-- A pull of a stopped voice is answered with 0 and writes no state element (43_voice_mixer.md R143). -/
theorem step_pull_of_stopped (s : State) (rest : List (HostEvent Number)) (stopped : s.playing = false)
    (hp : s.pending = pull :: rest) :
    step s = .next { s with rsp := some (.data 0), bus := none, pending := rest, freeCount := s.freeCount + 1 } :=
  (step_pull s rest hp).trans (nextSampleIsSilentWhileStopped _ (by exact stopped)).2

/-- Settles O47: without a TRIGGER or a reset the voice is kept, and a pull of it is silence. -/
theorem stoppedVoiceIsFrozenUntilTrigger : Obligations.StoppedVoiceIsFrozenUntilTrigger := by
  intro s t h stopped ht
  refine ⟨h.voice_of_stopped stopped ht, fun rest hp => ?_⟩
  cases ht.symm.trans (step_pull_of_stopped s rest stopped hp)
  exact ⟨rfl, rfl⟩

end Sys2Proof.Machine

/-! ## The reset and hazard statements (70_reset_and_hazards.md): the edge with rst, the block that never stops, and a
host that bounds the frequencies -/

namespace Sys2Proof.Machine

/-! ### The phases of a pull (40_oscillator.md R78) -/

/-- The frequency of a sweep lies between its two ends, so both oscillators' frequencies are bounded as at the ends
(42_sweep_envelope.md R128). -/
theorem real_sweepValue_bounds {P : Params ℝ} {t bound : ℝ} (hK : 0 ≤ P.kCurve) (nonneg : 0 ≤ t)
    (ratio : 1 ≤ P.kClickRatio) (start_nonneg : 0 ≤ P.startFrequency) (end_nonneg : 0 ≤ P.endFrequency)
    (start_le : P.kClickRatio * P.startFrequency ≤ bound) (end_le : P.kClickRatio * P.endFrequency ≤ bound) :
    sweepValue realNumerics P t ∈ Set.Icc 0 bound ∧
      P.kClickRatio * sweepValue realNumerics P t ∈ Set.Icc 0 bound := by
  have ratio_pos : 0 < P.kClickRatio := zero_lt_one.trans_le ratio
  obtain ⟨f_nonneg, f_le⟩ : sweepValue realNumerics P t ∈ Set.Icc 0 (bound / P.kClickRatio) :=
    Set.uIcc_subset_Icc ⟨start_nonneg, (le_div_iff₀' ratio_pos).mpr start_le⟩
      ⟨end_nonneg, (le_div_iff₀' ratio_pos).mpr end_le⟩ (sweepValue_mem_uIcc hK nonneg)
  have click_le := (le_div_iff₀' ratio_pos).mp f_le
  exact ⟨⟨f_nonneg, (le_mul_of_one_le_left f_nonneg ratio).trans click_le⟩, mul_nonneg ratio_pos.le f_nonneg, click_le⟩

section
variable {α : Type} [Field α] [LinearOrder α] [IsStrictOrderedRing α] {N : Numerics α} {P : Params α}
  {v : VoiceState α}

/-- A frequency up to the sample rate keeps the phase in its range. -/
theorem IsExact.oscSine_phase_mem_Ico_of_frequency (E : IsExact N) (hP : 0 < P.sampleRate) {phase f : α}
    (hphase : phase ∈ Set.Ico 0 1) (hf : f ∈ Set.Icc 0 P.sampleRate) : (oscSine N P phase f).2 ∈ Set.Ico 0 1 :=
  E.oscSine_phase_mem_Ico hP hphase ⟨div_nonneg hf.1 hP.le, (div_le_one hP).mpr hf.2⟩

/-- A pull keeps both phases in range, if it plays the two oscillators at frequencies up to the sample rate. -/
theorem IsExact.nextSample_phases_mem_Ico (E : IsExact N) (hP : 0 < P.sampleRate)
    (tone : sweepValue N P v.currentTime ∈ Set.Icc 0 P.sampleRate)
    (click : P.kClickRatio * sweepValue N P v.currentTime ∈ Set.Icc 0 P.sampleRate)
    (htone : v.tonePhase ∈ Set.Ico 0 1) (hclick : v.clickPhase ∈ Set.Ico 0 1) :
    (nextSample N P v).2.tonePhase ∈ Set.Ico 0 1 ∧ (nextSample N P v).2.clickPhase ∈ Set.Ico 0 1 := by
  obtain ⟨-, hv⟩ | ⟨-, hv⟩ := nextSample_cases N P v
  · rw [hv]
    exact ⟨htone, hclick⟩
  · rw [hv, playingSample_tonePhase, playingSample_clickPhase, E.mul]
    exact ⟨E.oscSine_phase_mem_Ico_of_frequency hP htone tone, E.oscSine_phase_mem_Ico_of_frequency hP hclick click⟩

end

/-- Settles O28: the sweep keeps the bound of its two ends, for the click's multiple of it too, and bounded frequencies
keep the phases. -/
theorem realVoicePhasesStayInUnitInterval : Obligations.RealVoicePhasesStayInUnitInterval := by
  intro P v hP current hK ratio start_nonneg start_le end_nonneg end_le htone hclick
  obtain ⟨tone, click⟩ := real_sweepValue_bounds hK current ratio start_nonneg end_nonneg start_le end_le
  exact real_isExact.nextSample_phases_mem_Ico hP tone click htone hclick

/-! ### One response to each command (R204, 30_encoding.md R56) -/

theorem step_portOnly {s t : State} (h : step s = .next t) (ports : s.portOnly) : t.portOnly :=
  stepOf_portOnly s.block (step_next s t h).1 ports

/-- Driven by its ports, the machine responds in the steps that take a word from the command port, with the data of the
command or with CmdError, and in no other. -/
theorem step_rspValid_iff {s t : State} (ports : s.portOnly) (h : step s = .next t) :
    t.rspValid = true ↔ ∃ op rest, s.pending = .command op :: rest := by
  obtain ⟨hp, rfl⟩ | ⟨e, rest, hp, answer⟩ := step_cases s t h
  · simp [hp, RunState.rspValid]
  obtain ⟨rfl, rfl⟩ | ⟨rfl, rfl⟩ | ⟨op, i, rfl, hi, ht⟩ | ⟨op, rfl, -, rfl⟩ | ⟨op, arg, i, rfl, -, -⟩ := answer
  · simp [hp, RunState.rspValid]
  · simp [hp, RunState.rspValid]
  · have command : i.port = .command :=
      HostEvent.port_of_presents (presents_of_decodeCmd (α := Number) op i hi) rfl
    obtain ⟨-, -, answered⟩ := noOperationFails i (s.onRun (.accept rest))
    obtain ⟨response, -⟩ := (answered t ht).1 command
    exact iff_of_true response ⟨op, rest, hp⟩
  · exact iff_of_true rfl ⟨op, rest, hp⟩
  · exact absurd (ports (.unitOp op arg) (by simp [hp])) Bool.false_ne_true

/-- Settles O43: the ports give every step an answer, and the response is the one of the command taken. -/
theorem everyCommandGetsOneResponse : Obligations.EveryCommandGetsOneResponse :=
  fun s ports => (step_answers s ports).imp_left fun ⟨t, ht⟩ =>
    ⟨t, ht, step_portOnly ht ports, step_rspValid_iff ports ht⟩

/-! ### The edge with rst (R190, R191) -/

/-- Settles O40: the arm of `step` for the edge, whose reset value is `const 0` of the format, the number 0. -/
theorem rstTakesTheResetValues : Obligations.RstTakesTheResetValues := by
  intro s rest hp
  simp only [step, hp, numerics_const_zero]
  rfl

end Sys2Proof.Machine
